-- ==== Sys2Proof/Word.lean ====
section
/-! DEFINITION. The word types of the block and the shape of one bus transfer. -/

namespace Sys2Proof

/-- A register, an operand or a bus address: 32 bits (R9, R11). -/
abbrev Word := BitVec 32

/-- The unit of bus memory (R60). -/
abbrev Byte := BitVec 8

/-- The width of one host bus access. -/
inductive Width where
  | byte | half | word
deriving DecidableEq, Repr

/-- How many bytes an access of this width moves. -/
def Width.bytes : Width → Nat
  | .byte => 1
  | .half => 2
  | .word => 4

/-- The direction of one access and, for a write, its 32-bit data word (R96). -/
inductive Access where
  | read
  | write (w : Word)
deriving DecidableEq, Repr

/-- What a decoder of the block is given (R90): a word taken from the CTRL latch, a word taken from
the OUT phase, or one access to the register window. -/
inductive Raw where
  | ctrl (w : Word)
  | out  (w : Word)
  | mmio (off : BitVec 9) (width : Width) (a : Access)
deriving DecidableEq, Repr

end Sys2Proof
end

