-- ==== Sys2Proof/Config.lean ====
section
/-! DEFINITION. The constants of R7, the parameters of R8 and the free values of R16. -/

namespace Sys2Proof

/-- `SAMPLE_ENDIAN` (R8, R62). -/
inductive Endian where
  | little | big
deriving DecidableEq, Repr

/-- `DIV_ROUNDING` (R8, R12). -/
inductive Rounding where
  | towardZero | floor
deriving DecidableEq, Repr

/-- The parameters the source leaves open (R8). `PORT` is the agenda's (log 11); `ADDR_WIDTH` is
fixed at its default (log 5). -/
structure Config where
  /-- `MIXER_BASE`: where the register window lies. -/
  mixerBase : Word
  /-- `SAMPLE_ENDIAN`. -/
  sampleEndian : Endian
  /-- `DIV_ROUNDING`. -/
  divRounding : Rounding
  /-- `CLAMP_CHANNEL_VOLUME`. -/
  clampChannelVolume : Bool
  /-- `LOOP_WRAP_GAP`. -/
  loopWrapGap : Bool
  /-- `MAX_SAMPLE_COUNT`. -/
  maxSampleCount : Word
  /-- `RESET_SAMPLE_REQUEST`. -/
  resetSampleRequest : Word
deriving DecidableEq, Repr

/-- The defaults of R8. `MIXER_BASE` is OPEN there; 0 is this model's value for it.
DESIGN CHOICE, unsafe: log 4. -/
def Config.default : Config where
  mixerBase := 0
  sampleEndian := .little
  divRounding := .towardZero
  clampChannelVolume := false
  loopWrapGap := false
  maxSampleCount := 65472
  resetSampleRequest := 1024

/-- The domains of R8: the base is a multiple of 0x200, the largest sample count a multiple of 64. -/
def Config.wf (c : Config) : Bool :=
  c.mixerBase.toNat % 0x200 == 0 && c.maxSampleCount.toNat % 64 == 0

/-- `MAX_CHANNELS` (R7). -/
def maxChannels : Nat := 8
/-- `FADE_MAX` (R7): the pass gain that means unity. -/
def fadeMax : Nat := 256
/-- `FADE_FULL` (R7): the 16.16 level at unity, `FADE_MAX << 16`. -/
def fadeFull : Nat := 0x01000000
/-- `UNITY` (R7): full scale of a volume. -/
def unity : Nat := 0x8000
/-- `SAMPLE_GRANULE` (R7). -/
def sampleGranule : Nat := 64
/-- 2^`ADDR_WIDTH` bytes of bus memory (R60, R69). -/
def addrSpace : Nat := 2 ^ 32
/-- The size of the register window in bytes (R23). -/
def windowSize : Nat := 0x200

/-- The free values of R16 ("any value"): the n-th draw. It has no body, so nothing can be proved of
what it is. log 7. -/
opaque Config.freeWord : Nat → Word

end Sys2Proof
end

