-- ==== Sys2Proof/Syntax.lean ====
section
/-! DEFINITION. The instructions: one constructor per row of spec/opcode_table.json. -/

namespace Sys2Proof

/-- What the block can be told to do (R2): a control command, an output-port command, or one access
to the register window. A command's operands are in the operand registers (R93, R95), not in its
word; a `CH` field a command ignores (R99) is kept, so that no bit of a word is dropped. -/
inductive Instr where
  -- CTRL32 (R91, R92)
  | nop (ch : BitVec 8)
  | alloc (ch : BitVec 8)
  | free (h : BitVec 8)
  | submit (h : BitVec 8)
  | setVolume (h : BitVec 8)
  | fadeOut (h : BitVec 8)
  | fadeIn (h : BitVec 8)
  | setSampleCount (ch : BitVec 8)
  | mix (ch : BitVec 8)
  | illegalCtrl (w : Word)
  -- OUT32 (R94, R95)
  | onop
  | reserve
  | release
  | output
  | illegalOut (w : Word)
  -- MMIO (R96, R23)
  | wrCtrlCmd (w : Word)
  | rdCtrlCmd
  | wrCtrlArg0 (w : Word)
  | rdCtrlArg0
  | wrCtrlArg1 (w : Word)
  | rdCtrlArg1
  | wrCtrlArg2 (w : Word)
  | rdCtrlArg2
  | wrCtrlStatus (w : Word)
  | rdCtrlStatus
  | wrCtrlResult (w : Word)
  | rdCtrlResult
  | wrMasterVol (w : Word)
  | rdMasterVol
  | wrSampleCount (w : Word)
  | rdSampleCount
  | wrConfig (w : Word)
  | rdConfig
  | wrCtrlLock (w : Word)
  | rdCtrlLock
  | wrOutCmd (w : Word)
  | rdOutCmd
  | wrOutArg0 (w : Word)
  | rdOutArg0
  | wrOutArg1 (w : Word)
  | rdOutArg1
  | wrOutStatus (w : Word)
  | rdOutStatus
  | wrOutErrcode (w : Word)
  | rdOutErrcode
  | wrHwState (w : Word)
  | rdHwState
  | wrHwHandle (w : Word)
  | rdHwHandle
  | wrHwFrames (w : Word)
  | rdHwFrames
  | rdChState (c : Fin 8)
  | rdChVolL (c : Fin 8)
  | rdChVolR (c : Fin 8)
  | rdChBufBase (c : Fin 8)
  | rdChBufLen (c : Fin 8)
  | rdChPosition (c : Fin 8)
  | rdChFadeLevel (c : Fin 8)
  | rdChFadeStep (c : Fin 8)
  | wrChBank (c : Fin 8) (k : BitVec 5) (w : Word)
  | reserved (off : BitVec 9) (a : Access)
deriving DecidableEq, Repr

end Sys2Proof
end

