-- ==== Sys2Proof/WellFormed.lean ====
section
/-! DEFINITION. Which terms of `Instr` an encoding stands for. -/

namespace Sys2Proof

/-- A CTRL word some command of R92 has: `RSV` is 0 and `OP` is in 0x00..0x08 (R97). -/
def ctrlLegal (w : Word) : Bool :=
  w.extractLsb' 16 16 == 0 && decide ((w.extractLsb' 0 8).toNat ≤ 0x08)

/-- An OUT word some command of R95 has: `RSV` is 0 and `OP` is in 0x00..0x03 (R97). -/
def outLegal (w : Word) : Bool :=
  w.extractLsb' 8 24 == 0 && decide ((w.extractLsb' 0 8).toNat ≤ 0x03)

/-- The offsets below 0x100 that the table of R23 names. -/
def namedOffsets : List Nat :=
  [0x000, 0x004, 0x008, 0x00C, 0x010, 0x014, 0x018, 0x01C, 0x020, 0x024] ++
  [0x040, 0x044, 0x048, 0x050, 0x054, 0x058, 0x05C, 0x060]

/-- A word-aligned offset no rule names (R43). -/
def reservedOffset (off : BitVec 9) : Bool :=
  off.toNat % 4 == 0 && decide (off.toNat < 0x100) && !(namedOffsets.contains off.toNat)

/-- The terms that some word or access encodes: an illegal command holds a word no command has, a bank
write a word-aligned register, a reserved access a reserved offset. -/
def Instr.wf : Instr → Bool
  | .illegalCtrl w => !ctrlLegal w
  | .illegalOut w => !outLegal w
  | .wrChBank _ k _ => k.toNat % 4 == 0
  | .reserved off _ => reservedOffset off
  | _ => true

end Sys2Proof
end

