-- ==== Sys2Proof/Decode.lean ====
section
/-! DEFINITION. The decoders of R96 and R100, total, and the encoder written from the same tables. -/

namespace Sys2Proof

/-- Why a transfer to the window is no instruction: both are model faults (R66, R247 item 1). -/
inductive DecodeError where
  | wrongWidth
  | misaligned
deriving DecidableEq, Repr

/-- The three formats of R90. -/
inductive Format where
  | ctrl32 | out32 | mmio
deriving DecidableEq, Repr

/-- `decode_ctrl` of R100. -/
def decodeCtrl (w : Word) : Instr :=
  if w.extractLsb' 16 16 != 0 then .illegalCtrl w
  else
    let ch := w.extractLsb' 8 8
    match (w.extractLsb' 0 8).toNat with
    | 0x00 => .nop ch
    | 0x01 => .alloc ch
    | 0x02 => .free ch
    | 0x03 => .submit ch
    | 0x04 => .setVolume ch
    | 0x05 => .fadeOut ch
    | 0x06 => .fadeIn ch
    | 0x07 => .setSampleCount ch
    | 0x08 => .mix ch
    | _ => .illegalCtrl w

/-- `decode_out` of R100. -/
def decodeOut (w : Word) : Instr :=
  if w.extractLsb' 8 24 != 0 then .illegalOut w
  else
    match (w.extractLsb' 0 8).toNat with
    | 0x00 => .onop
    | 0x01 => .reserve
    | 0x02 => .release
    | 0x03 => .output
    | _ => .illegalOut w

/-- A named register below 0x100 in one direction (R23). -/
def decodeRegister (off : BitVec 9) (a : Access) : Instr :=
  match off.toNat, a with
  | 0x000, .read => .rdCtrlCmd
  | 0x000, .write w => .wrCtrlCmd w
  | 0x004, .read => .rdCtrlArg0
  | 0x004, .write w => .wrCtrlArg0 w
  | 0x008, .read => .rdCtrlArg1
  | 0x008, .write w => .wrCtrlArg1 w
  | 0x00C, .read => .rdCtrlArg2
  | 0x00C, .write w => .wrCtrlArg2 w
  | 0x010, .read => .rdCtrlStatus
  | 0x010, .write w => .wrCtrlStatus w
  | 0x014, .read => .rdCtrlResult
  | 0x014, .write w => .wrCtrlResult w
  | 0x018, .read => .rdMasterVol
  | 0x018, .write w => .wrMasterVol w
  | 0x01C, .read => .rdSampleCount
  | 0x01C, .write w => .wrSampleCount w
  | 0x020, .read => .rdConfig
  | 0x020, .write w => .wrConfig w
  | 0x024, .read => .rdCtrlLock
  | 0x024, .write w => .wrCtrlLock w
  | 0x040, .read => .rdOutCmd
  | 0x040, .write w => .wrOutCmd w
  | 0x044, .read => .rdOutArg0
  | 0x044, .write w => .wrOutArg0 w
  | 0x048, .read => .rdOutArg1
  | 0x048, .write w => .wrOutArg1 w
  | 0x050, .read => .rdOutStatus
  | 0x050, .write w => .wrOutStatus w
  | 0x054, .read => .rdOutErrcode
  | 0x054, .write w => .wrOutErrcode w
  | 0x058, .read => .rdHwState
  | 0x058, .write w => .wrHwState w
  | 0x05C, .read => .rdHwHandle
  | 0x05C, .write w => .wrHwHandle w
  | 0x060, .read => .rdHwFrames
  | 0x060, .write w => .wrHwFrames w
  | _, a => .reserved off a

/-- The channel bank, offsets 0x100 + 0x20*c + k (R39): a write is ignored whichever register it
names. -/
def decodeBank (off : BitVec 9) (a : Access) : Instr :=
  let c : Fin 8 := (off.extractLsb' 5 3).toFin
  let k : BitVec 5 := off.extractLsb' 0 5
  match a with
  | .write w => .wrChBank c k w
  | .read =>
    match k.toNat with
    | 0x00 => .rdChState c
    | 0x04 => .rdChVolL c
    | 0x08 => .rdChVolR c
    | 0x0C => .rdChBufBase c
    | 0x10 => .rdChBufLen c
    | 0x14 => .rdChPosition c
    | 0x18 => .rdChFadeLevel c
    | _ => .rdChFadeStep c

/-- One access to the window (R96): only aligned 32-bit accesses are defined (R66). -/
def decodeMmio (off : BitVec 9) (width : Width) (a : Access) : Except DecodeError Instr :=
  if width != .word then .error .wrongWidth
  else if off.toNat % 4 != 0 then .error .misaligned
  else if off.toNat < 0x100 then .ok (decodeRegister off a)
  else .ok (decodeBank off a)

/-- Every transfer decodes to one instruction or is rejected by name. -/
def decode : Raw → Except DecodeError Instr
  | .ctrl w => .ok (decodeCtrl w)
  | .out w => .ok (decodeOut w)
  | .mmio off width a => decodeMmio off width a

/-- A CTRL word `(RSV << 16) | (CH << 8) | OP` with `RSV` = 0 (R91, R103). -/
def ctrlWord (op : BitVec 8) (ch : BitVec 8) : Word := (0 : BitVec 16) ++ ch ++ op

/-- An OUT word with `RSV` = 0 (R94). -/
def outWord (op : BitVec 8) : Word := (0 : BitVec 24) ++ op

/-- A read of the register at `off`. -/
def mmioRead (off : BitVec 9) : Raw := .mmio off .word .read

/-- A write of `w` to the register at `off`. -/
def mmioWrite (off : BitVec 9) (w : Word) : Raw := .mmio off .word (.write w)

/-- The offset of register `k` in the bank of slot `c` (R39): `0x100 + 0x20*c + k`. -/
def bankOffset (c : Fin 8) (k : BitVec 5) : BitVec 9 := (1 : BitVec 1) ++ BitVec.ofFin (w := 3) c ++ k

/-- The transfer an instruction is encoded by, from the tables of R23, R92 and R95. -/
def encode : Instr → Raw
  | .nop ch => .ctrl (ctrlWord 0x00 ch)
  | .alloc ch => .ctrl (ctrlWord 0x01 ch)
  | .free h => .ctrl (ctrlWord 0x02 h)
  | .submit h => .ctrl (ctrlWord 0x03 h)
  | .setVolume h => .ctrl (ctrlWord 0x04 h)
  | .fadeOut h => .ctrl (ctrlWord 0x05 h)
  | .fadeIn h => .ctrl (ctrlWord 0x06 h)
  | .setSampleCount ch => .ctrl (ctrlWord 0x07 ch)
  | .mix ch => .ctrl (ctrlWord 0x08 ch)
  | .illegalCtrl w => .ctrl w
  | .onop => .out (outWord 0x00)
  | .reserve => .out (outWord 0x01)
  | .release => .out (outWord 0x02)
  | .output => .out (outWord 0x03)
  | .illegalOut w => .out w
  | .wrCtrlCmd w => mmioWrite 0x000 w
  | .rdCtrlCmd => mmioRead 0x000
  | .wrCtrlArg0 w => mmioWrite 0x004 w
  | .rdCtrlArg0 => mmioRead 0x004
  | .wrCtrlArg1 w => mmioWrite 0x008 w
  | .rdCtrlArg1 => mmioRead 0x008
  | .wrCtrlArg2 w => mmioWrite 0x00C w
  | .rdCtrlArg2 => mmioRead 0x00C
  | .wrCtrlStatus w => mmioWrite 0x010 w
  | .rdCtrlStatus => mmioRead 0x010
  | .wrCtrlResult w => mmioWrite 0x014 w
  | .rdCtrlResult => mmioRead 0x014
  | .wrMasterVol w => mmioWrite 0x018 w
  | .rdMasterVol => mmioRead 0x018
  | .wrSampleCount w => mmioWrite 0x01C w
  | .rdSampleCount => mmioRead 0x01C
  | .wrConfig w => mmioWrite 0x020 w
  | .rdConfig => mmioRead 0x020
  | .wrCtrlLock w => mmioWrite 0x024 w
  | .rdCtrlLock => mmioRead 0x024
  | .wrOutCmd w => mmioWrite 0x040 w
  | .rdOutCmd => mmioRead 0x040
  | .wrOutArg0 w => mmioWrite 0x044 w
  | .rdOutArg0 => mmioRead 0x044
  | .wrOutArg1 w => mmioWrite 0x048 w
  | .rdOutArg1 => mmioRead 0x048
  | .wrOutStatus w => mmioWrite 0x050 w
  | .rdOutStatus => mmioRead 0x050
  | .wrOutErrcode w => mmioWrite 0x054 w
  | .rdOutErrcode => mmioRead 0x054
  | .wrHwState w => mmioWrite 0x058 w
  | .rdHwState => mmioRead 0x058
  | .wrHwHandle w => mmioWrite 0x05C w
  | .rdHwHandle => mmioRead 0x05C
  | .wrHwFrames w => mmioWrite 0x060 w
  | .rdHwFrames => mmioRead 0x060
  | .rdChState c => mmioRead (bankOffset c 0x00)
  | .rdChVolL c => mmioRead (bankOffset c 0x04)
  | .rdChVolR c => mmioRead (bankOffset c 0x08)
  | .rdChBufBase c => mmioRead (bankOffset c 0x0C)
  | .rdChBufLen c => mmioRead (bankOffset c 0x10)
  | .rdChPosition c => mmioRead (bankOffset c 0x14)
  | .rdChFadeLevel c => mmioRead (bankOffset c 0x18)
  | .rdChFadeStep c => mmioRead (bankOffset c 0x1C)
  | .wrChBank c k w => mmioWrite (bankOffset c k) w
  | .reserved off a => .mmio off .word a

/-- The format of a transfer. -/
def Raw.format : Raw → Format
  | .ctrl _ => .ctrl32
  | .out _ => .out32
  | .mmio _ _ _ => .mmio

/-- The format of an instruction's row in the opcode table (R90, R92, R95, R96). -/
def Instr.format : Instr → Format
  | .nop _ | .alloc _ | .free _ | .submit _ | .setVolume _ | .fadeOut _ | .fadeIn _
  | .setSampleCount _ | .mix _ | .illegalCtrl _ => .ctrl32
  | .onop | .reserve | .release | .output | .illegalOut _ => .out32
  | .wrCtrlCmd _ | .rdCtrlCmd | .wrCtrlArg0 _ | .rdCtrlArg0 | .wrCtrlArg1 _
  | .rdCtrlArg1 | .wrCtrlArg2 _ | .rdCtrlArg2 | .wrCtrlStatus _ | .rdCtrlStatus
  | .wrCtrlResult _ | .rdCtrlResult | .wrMasterVol _ | .rdMasterVol | .wrSampleCount _
  | .rdSampleCount | .wrConfig _ | .rdConfig | .wrCtrlLock _ | .rdCtrlLock
  | .wrOutCmd _ | .rdOutCmd | .wrOutArg0 _ | .rdOutArg0 | .wrOutArg1 _
  | .rdOutArg1 | .wrOutStatus _ | .rdOutStatus | .wrOutErrcode _ | .rdOutErrcode
  | .wrHwState _ | .rdHwState | .wrHwHandle _ | .rdHwHandle | .wrHwFrames _
  | .rdHwFrames | .rdChState _ | .rdChVolL _ | .rdChVolR _ | .rdChBufBase _
  | .rdChBufLen _ | .rdChPosition _ | .rdChFadeLevel _ | .rdChFadeStep _ | .wrChBank _ _ _
  | .reserved _ _ => .mmio

/-- A number laid out as the table numbers a row's bits, read as a transfer. The table numbers 32-bit
CTRL and OUT words alike, and gives an MMIO row its 9-bit offset without its direction, so one
number can stand for two rows; the bits this model adds above the table's say which, and 0 there
means the CTRL port, and a read. An MMIO access is bits 8:0 the offset, bit 9 the direction (1 a
write), bits 47:16 the data; a command is bits 31:0 the word, bit 32 the port (1 OUT). log 17. -/
def rawOfTable (nbits w : Nat) : Option Raw :=
  if nbits ≤ 16 || nbits == 48 then
    if (w / 2 ^ 10) % 2 ^ 6 != 0 then none
    else some (.mmio (BitVec.ofNat 9 w) .word
      (if w.testBit 9 then .write (BitVec.ofNat 32 (w / 2 ^ 16)) else .read))
  else if nbits == 32 || nbits == 40 then
    some (if w.testBit 32 then .out (BitVec.ofNat 32 w) else .ctrl (BitVec.ofNat 32 w))
  else none

/-- The number and the bit count of a transfer, as `rawOfTable` reads them. -/
def tableOfRaw : Raw → Nat × Nat
  | .ctrl w => (32, w.toNat)
  | .out w => (40, 2 ^ 32 + w.toNat)
  | .mmio off _ .read => (16, off.toNat)
  | .mmio off _ (.write w) => (48, off.toNat + 2 ^ 9 + w.toNat * 2 ^ 16)

/-- The instruction the decoder reads from a number of `nbits` bits. log 17. -/
def decodeTableWord (nbits w : Nat) : Option Instr :=
  match rawOfTable nbits w with
  | none => none
  | some r =>
    match decode r with
    | .ok i => some i
    | .error _ => none

end Sys2Proof
end

