-- ==== Sys2Proof/Machine/Arith.lean ====
section
/-! DEFINITION. The arithmetic primitives of R12, on exact integers, and the address arithmetic of
R65 and R69. -/

namespace Sys2Proof.Machine

/-- `clamp(x, lo, hi)` (R12). -/
def clamp (x lo hi : Int) : Int :=
  if x < lo then lo else if hi < x then hi else x

/-- `sat16(x)` (R12): the saturation of a sample. -/
def sat16 (x : Int) : Int := clamp x (-32768) 32767

/-- `quot(a, b)` for `b > 0` (R12): rounded as `DIV_ROUNDING` says. -/
def quot (r : Rounding) (a b : Int) : Int :=
  match r with
  | .towardZero => a.tdiv b
  | .floor => a.fdiv b

/-- `roundup64(n)` (R12): the least multiple of 64 that is at least `n`. -/
def roundup64 (n : Nat) : Nat := (n + (sampleGranule - 1)) / sampleGranule * sampleGranule

/-- What SAMPLE_COUNT takes for a request of `r` frames (R28, R180). -/
def sampleCountFor (cfg : Config) (r : Nat) : Word :=
  BitVec.ofNat 32 (min (roundup64 r) cfg.maxSampleCount.toNat)

/-- Every address the block forms is reduced modulo 2^`ADDR_WIDTH` (R69). -/
def wrapAddr (a : Nat) : Nat := a % addrSpace

/-- A base operand with bit 0 forced to 0 (R65): `a & 0xFFFF_FFFE`. -/
def evenBase (a : Word) : Word := a &&& 0xFFFFFFFE

end Sys2Proof.Machine
end

