-- ==== Sys2Proof/Machine/State.lean ====
section
/-! DEFINITION. The state: everything R20 gives the block, bus memory, and the model's own fields,
as plain data; and its value right after reset (R261). -/

namespace Sys2Proof.Machine

/-- The channel state (R37, R38). -/
inductive SlotState where
  | free | idle | playing | fadingOut
deriving DecidableEq, Repr

/-- `size` bytes of bus memory from `base` on, wrapping at the top (R63, R69). -/
structure Region where
  base : Word
  size : Nat
deriving DecidableEq, Repr

/-- One channel slot (R37). -/
structure Slot where
  state : SlotState
  looping : Bool
  volL : Word
  volR : Word
  bufBase : Word
  bufLen : Word
  position : Word
  fadeLevel : Word
  fadeStep : Word
  /-- What a host has written of this slot's buffer since SUBMIT (R77, R184); log 9. -/
  hostWrites : List Region
deriving DecidableEq, Repr

/-- FREE_SLOT (R158). -/
def Slot.freeSlot : Slot where
  state := .free
  looping := false
  volL := 0
  volR := 0
  bufBase := 0
  bufLen := 0
  position := 0
  fadeLevel := BitVec.ofNat 32 fadeFull
  fadeStep := 0
  hostWrites := []

/-- The result codes of R231; codes 8..15 are reserved and never written, and so have no name. -/
inductive ResultCode where
  | ok | noFreeChannels | invalidChannel | audioError
  | alreadyRunning | invalidArgument | noHwChannel | illegalCommand
deriving DecidableEq, Repr

/-- The one format RESERVE names; the spec gives it no number (R210, item 7). -/
inductive PortFormat where
  | stereoS16
deriving DecidableEq, Repr

/-- A request that waits for the Port's answer (R210, R212, R216). -/
inductive PortReq where
  | reserve (frames : Word) (format : PortFormat)
  | output (handle base : Word) (samples : Nat) (volL volR : Word)
deriving DecidableEq, Repr

/-- What the block sends to the Port (R210): a request with its number, or the one-way release. -/
inductive PortMsg where
  | request (id : Nat) (req : PortReq)
  | release (handle : Word)
deriving DecidableEq, Repr

/-- The Port's answer (R210): the handle of an `Ok` counts for a reserve only. -/
inductive PortAnswer where
  | ok (handle : Word)
  | err (code : Word)
deriving DecidableEq, Repr

/-- The phase of the OUT port (R36). -/
inductive OutPhase where
  | idle
  | pending (w : Word)
  | awaitPort (id : Nat) (req : PortReq)
deriving DecidableEq, Repr

/-- A held hardware channel: the triple HW_STATE.RESERVED = 1, HW_HANDLE, HW_FRAMES (R35, R213). -/
structure Reservation where
  handle : Word
  frames : Word
deriving DecidableEq, Repr

/-- One host bus access at a bus address (R101, R120). -/
structure BusAccess where
  addr : Word
  width : Width
  access : Access
deriving DecidableEq, Repr

/-- What an agent does next (R10): a host access, an engine's step, the Port's answer to the request
numbered `id`, a Port read of the buffer it was handed, or the reset input; log 1. -/
inductive Event where
  | host (a : BusAccess)
  | ctrlEngine
  | outEngine
  | portAnswer (id : Nat) (ans : PortAnswer)
  | portRead (addr : Word)
  | reset
deriving DecidableEq, Repr

/-- Bus memory (R60): address and byte, addresses strictly rising, no entry that holds what an
unlisted address reads as (`Memory.wf`). -/
abbrev Memory := List Host.Cell

/-- The whole machine. -/
structure State where
  /-- The parameters of R8; no step writes it (log 3). -/
  cfg : Config
  ctrlArg0 : Word
  ctrlArg1 : Word
  ctrlArg2 : Word
  /-- The CTRL port's pending latch (R31); CTRL_STATUS.BUSY is that it is full (log 6). -/
  ctrlLatch : Option Word
  /-- CTRL_STATUS.RESULT (R25). -/
  ctrlCode : ResultCode
  /-- CTRL_STATUS.OVR (R25). -/
  ctrlOvr : Bool
  /-- CTRL_RESULT (R26). -/
  ctrlResult : Word
  /-- MASTER_VOL (R27). -/
  masterVol : Word
  /-- SAMPLE_COUNT (R28). -/
  sampleCount : Word
  /-- CTRL_LOCK.HELD (R30). -/
  lockHeld : Bool
  outArg0 : Word
  outArg1 : Word
  /-- The OUT port's phase (R36); OUT_STATUS.BUSY is that it is not idle (log 6). -/
  outPhase : OutPhase
  /-- OUT_STATUS.RESULT (R33). -/
  outCode : ResultCode
  /-- OUT_STATUS.OVR (R33). -/
  outOvr : Bool
  /-- OUT_ERRCODE (R34). -/
  outErrcode : Word
  /-- HW_STATE, HW_HANDLE and HW_FRAMES as the one triple they change as (R35, R213). -/
  hw : Option Reservation
  /-- `slot[0..7]` (R37). -/
  slots : Vector Slot 8
  /-- Bus memory (R60). -/
  mem : Memory
  /-- What was written since an OUTPUT's acceptance, until it completes (R78, item 12); log 12. -/
  outTouched : List Region
  /-- The events still to come, next first; log 1. -/
  agenda : List Event
  /-- What the last host read returned; log 16. -/
  readData : Word
  /-- What the last Port read returned; log 12. -/
  portData : Byte
  /-- What the Port has received, oldest first; log 11. -/
  portLog : List PortMsg
  /-- The number the next request gets; log 11. -/
  reqCount : Nat
  /-- How many free values have been drawn; log 7. -/
  draws : Nat
deriving DecidableEq, Repr

/-- The reset values of R261 under a configuration, with an empty memory and no events. -/
def State.atReset (cfg : Config) : State where
  cfg := cfg
  ctrlArg0 := 0
  ctrlArg1 := 0
  ctrlArg2 := 0
  ctrlLatch := none
  ctrlCode := .ok
  ctrlOvr := false
  ctrlResult := 0
  masterVol := BitVec.ofNat 32 unity
  sampleCount := sampleCountFor cfg cfg.resetSampleRequest.toNat
  lockHeld := false
  outArg0 := 0
  outArg1 := 0
  outPhase := .idle
  outCode := .ok
  outOvr := false
  outErrcode := 0
  hw := none
  slots := Vector.replicate 8 Slot.freeSlot
  mem := []
  outTouched := []
  agenda := []
  readData := 0
  portData := 0
  portLog := []
  reqCount := 0
  draws := 0

/-- The machine right after reset under the default parameters of R8. -/
def State.reset : State := State.atReset Config.default

/-- Why the machine stops (R247). Neither is raised by a command. -/
inductive Fault where
  /-- A host access to the register window that is not 32 bits wide (R66, R247 item 1). Raised by
  `hostAccess`. Safe: the spec admits no behaviour for it. -/
  | wrongWidth
  /-- A 32-bit host access to the register window at an address that is no multiple of 4 (R66, R247
  item 1). Raised by `hostAccess`. Safe: the spec admits no behaviour for it. -/
  | misaligned
deriving DecidableEq, Repr

/-- Why an instruction has no meaning. -/
inductive Refusal where
  /-- Raised by an arm of `exec` whose instruction is not modelled. Safe: nothing is claimed of it.
  No arm raises it. -/
  | notModelled (mnemonic : String)
deriving DecidableEq, Repr

/-- The outcome of a step or of a meaning. -/
abbrev Result := Host.Outcome State Fault Refusal

end Sys2Proof.Machine
end

