-- ==== Sys2Proof/Machine/Flags.lean ====
section
/-! DEFINITION. The status flags of R42 and the registers computed from other state. -/

namespace Sys2Proof.Machine

/-- The code a result is written as (R231). -/
def ResultCode.bits : ResultCode → BitVec 4
  | .ok => 0
  | .noFreeChannels => 1
  | .invalidChannel => 2
  | .audioError => 3
  | .alreadyRunning => 4
  | .invalidArgument => 5
  | .noHwChannel => 6
  | .illegalCommand => 7

/-- CTRL_STATUS.BUSY: the pending latch is full (R31). -/
def State.ctrlBusy (s : State) : Bool := s.ctrlLatch.isSome

/-- OUT_STATUS.BUSY: the phase is not Idle (R36). -/
def State.outBusy (s : State) : Bool := s.outPhase != .idle

/-- A status register (R25, R33, R129): `(OVR << 9) | (BUSY << 8) | RESULT`. -/
def statusWord (ovr busy : Bool) (code : ResultCode) : Word :=
  (0 : BitVec 22) ++ BitVec.ofBool ovr ++ BitVec.ofBool busy ++ (0 : BitVec 4) ++ code.bits

/-- CTRL_STATUS as it is read (R129). -/
def State.ctrlStatus (s : State) : Word := statusWord s.ctrlOvr s.ctrlBusy s.ctrlCode

/-- OUT_STATUS as it is read (R129). -/
def State.outStatus (s : State) : Word := statusWord s.outOvr s.outBusy s.outCode

/-- OVR after a write of `w` to its status register (R130): bit 9 is write-1-to-clear. -/
def ovrAfterWrite (ovr : Bool) (w : Word) : Bool := ovr && !w.getLsbD 9

/-- HW_STATE as it is read (R35): bit 0 is RESERVED. -/
def State.hwState (s : State) : Word := if s.hw.isSome then 1 else 0

/-- HW_HANDLE as it is read (R35): 0 without a reservation. -/
def State.hwHandle (s : State) : Word :=
  match s.hw with
  | some r => r.handle
  | none => 0

/-- HW_FRAMES as it is read (R35): 0 without a reservation. -/
def State.hwFrames (s : State) : Word :=
  match s.hw with
  | some r => r.frames
  | none => 0

/-- CONFIG (R29): bits 7:0 are `MAX_CHANNELS`. -/
def configWord : Word := BitVec.ofNat 32 maxChannels

/-- The encoding of a channel state in CH_STATE bits 1:0 (R38). -/
def SlotState.bits : SlotState → BitVec 2
  | .free => 0
  | .idle => 1
  | .playing => 2
  | .fadingOut => 3

/-- CH_STATE as it is read (R39): bits 1:0 `state`, bit 8 `looping`. -/
def Slot.stateWord (sl : Slot) : Word :=
  (0 : BitVec 23) ++ BitVec.ofBool sl.looping ++ (0 : BitVec 6) ++ sl.state.bits

/-- A slot that MIX processes (R181). -/
def Slot.active (sl : Slot) : Bool := sl.state == .playing || sl.state == .fadingOut

end Sys2Proof.Machine
end

