-- ==== Sys2Proof/Machine/Operands.lean ====
section
/-! DEFINITION. The operand assembly of R93 and R95, every form. -/

namespace Sys2Proof.Machine

/-- Left volume of ALLOC and SET_VOLUME: `sext_32(x[0])`. -/
def State.argVolL (s : State) : Int := s.ctrlArg0.toInt

/-- Right volume of ALLOC and SET_VOLUME: `sext_32(x[1])`. -/
def State.argVolR (s : State) : Int := s.ctrlArg1.toInt

/-- `vol_in(v)` (R157): clamped only under `CLAMP_CHANNEL_VOLUME`. -/
def volIn (cfg : Config) (v : Int) : Word :=
  BitVec.ofInt 32 (if cfg.clampChannelVolume then clamp v 0 unity else v)

/-- Looping of ALLOC: `x[2][0]`. -/
def State.argLooping (s : State) : Bool := s.ctrlArg2.getLsbD 0

/-- Buffer base of SUBMIT and output base of MIX: `x[0] & 0xFFFF_FFFE`. -/
def State.argBase (s : State) : Word := evenBase s.ctrlArg0

/-- Buffer length of SUBMIT in stereo frames: `zext_32(x[1])`. -/
def State.argFrames (s : State) : Word := s.ctrlArg1

/-- N of FADE_OUT and FADE_IN, and the requested frames of SET_SAMPLE_COUNT: `zext_32(x[0])`. -/
def State.argCount (s : State) : Nat := s.ctrlArg0.toNat

/-- Buffer base of OUTPUT: `OUT_ARG0 & 0xFFFF_FFFE` (R95, R216). -/
def State.outBase (s : State) : Word := evenBase s.outArg0

/-- Buffer length of OUTPUT in samples: `zext_32(OUT_ARG1)` (R95, R216). -/
def State.outLen (s : State) : Nat := s.outArg1.toNat

/-- What a write of `w` stores in MASTER_VOL (R125): `clamp(sext_32(w), 0, 0x8000)`. -/
def masterVolIn (w : Word) : Word := BitVec.ofInt 32 (clamp w.toInt 0 unity)

end Sys2Proof.Machine
end

