-- ==== Sys2Proof/Machine/Ops.lean ====
section
/-! DEFINITION. The shared operations over memory, slots, ports and free values, and reset. -/

namespace Sys2Proof.Machine

/-! ## Memory -/

/-- What an address that nothing has written reads as. DESIGN CHOICE, unsafe: log 13. -/
def unlistedByte : Byte := 0

/-- The byte at an address. -/
def Memory.read : Memory → Nat → Byte
  | [], _ => unlistedByte
  | (a, b) :: m, x => if a = x then b else Memory.read m x

/-- The entries left when `x` holds what an unlisted address reads as, or with it put in front. -/
def Memory.cons (x : Nat) (v : Byte) (m : Memory) : Memory :=
  if v = unlistedByte then m else (x, v) :: m

/-- One byte stored; the canonical form is kept. -/
def Memory.write : Memory → Nat → Byte → Memory
  | [], x, v => Memory.cons x v []
  | (a, b) :: m, x, v =>
    if x < a then Memory.cons x v ((a, b) :: m)
    else if x = a then Memory.cons x v m
    else (a, b) :: Memory.write m x v

/-- The canonical form: addresses below 2^32 and strictly rising, no entry that holds what an unlisted
address reads as. -/
def Memory.wf : Memory → Bool
  | [] => true
  | (a, b) :: m =>
    decide (a < addrSpace) && b != unlistedByte && m.all (fun c => decide (a < c.1)) && Memory.wf m

/-- The `n` bytes at `a`, `a+1`, … modulo 2^32, lowest address first (R13, R69). -/
def Memory.bytesAt (m : Memory) (a : Nat) : Nat → List Byte
  | 0 => []
  | n + 1 => m.read (wrapAddr a) :: Memory.bytesAt m (a + 1) n

/-- Bytes stored at `a`, `a+1`, … modulo 2^32 (R13, R69). -/
def Memory.storeBytes (m : Memory) (a : Nat) : List Byte → Memory
  | [] => m
  | b :: bs => Memory.storeBytes (m.write (wrapAddr a) b) (a + 1) bs

/-- Bytes in rising significance assembled into an unsigned integer. -/
def littleValue : List Byte → Nat
  | [] => 0
  | b :: bs => b.toNat + 256 * littleValue bs

/-- Bytes, lowest address first, assembled in `SAMPLE_ENDIAN` order (R13). -/
def assemble (e : Endian) (bs : List Byte) : Nat :=
  match e with
  | .little => littleValue bs
  | .big => littleValue bs.reverse

/-- The low `n` bytes of `v` in rising significance. -/
def littleBytes (v : Nat) : Nat → List Byte
  | 0 => []
  | n + 1 => BitVec.ofNat 8 v :: littleBytes (v / 256) n

/-- The `n`-byte pattern of `v`, lowest address first, in `SAMPLE_ENDIAN` order (R13). -/
def disassemble (e : Endian) (n v : Nat) : List Byte :=
  match e with
  | .little => littleBytes v n
  | .big => (littleBytes v n).reverse

/-- `MemRead(addr, n)` (R13). -/
def memRead (e : Endian) (m : Memory) (a n : Nat) : Nat := assemble e (m.bytesAt a n)

/-- `MemWrite(addr, n, v)` (R13). -/
def memWrite (e : Endian) (m : Memory) (a n v : Nat) : Memory := m.storeBytes a (disassemble e n v)

/-! ## Regions -/

/-- The address lies in the region, which may wrap at the top of the address space (R69). -/
def Region.contains (r : Region) (a : Nat) : Bool :=
  decide ((a + (addrSpace - r.base.toNat)) % addrSpace < r.size)

/-- Two regions share an address. -/
def Region.overlaps (r q : Region) : Bool :=
  (decide (0 < r.size) && q.contains r.base.toNat) || (decide (0 < q.size) && r.contains q.base.toNat)

/-- Some region of the list holds the address. -/
def anyContains (rs : List Region) (a : Nat) : Bool := rs.any (fun r => r.contains a)

/-- The bytes of a slot's buffer: `4 * buf_len` from `buf_base` on (R63). -/
def Slot.buffer (sl : Slot) : Region := ⟨sl.bufBase, 4 * sl.bufLen.toNat⟩

/-- The register window (R23). -/
def windowOf (cfg : Config) : Region := ⟨cfg.mixerBase, windowSize⟩

/-- The output region of a MIX that runs in this state: `4 * SAMPLE_COUNT` bytes at the output base
(R189). -/
def State.mixRegion (s : State) : Region := ⟨s.argBase, 4 * s.sampleCount.toNat⟩

/-! ## Slots -/

/-- `slot[c]` (R13). -/
def State.slot (s : State) (c : Fin 8) : Slot := s.slots[c]

/-- `slot[c] <- sl` (R13). -/
def State.setSlot (s : State) (c : Fin 8) (sl : Slot) : State :=
  { s with slots := s.slots.set c sl }

/-- The slots in ascending index order (R181). -/
def allSlots : List (Fin 8) := [0, 1, 2, 3, 4, 5, 6, 7]

/-! ## Free values -/

/-- The counter after `n` draws. -/
def State.drawn (s : State) (n : Nat) : State := { s with draws := s.draws + n }

/-- A free byte: the low byte of the `n`-th draw (R16). -/
def freeByte (n : Nat) : Byte := (Config.freeWord n).setWidth 8

/-! ## Completion: the place an exception entry would have (R230, R232, R238) -/

/-- A control command ends: the latch is emptied, so BUSY is 0, and RESULT is written (R122). `fail C`
is this with an error code and no effect before it (R232). -/
def State.completeCtrl (s : State) (code : ResultCode) : State :=
  { s with ctrlLatch := none, ctrlCode := code }

/-- An output-port command ends: the phase is Idle, so BUSY is 0, and RESULT is written (R218). -/
def State.completeOut (s : State) (code : ResultCode) : State :=
  { s with outPhase := .idle, outCode := code }

/-- A command ends with AUDIO_ERROR: the Port's code is kept verbatim (R34, R212, R216). -/
def State.audioError (s : State) (code : Word) : State :=
  { s with outErrcode := code }.completeOut .audioError

/-! ## The Port -/

/-- `PortSend(release, h)` (R210). -/
def State.sendRelease (s : State) (h : Word) : State :=
  { s with portLog := s.portLog ++ [.release h] }

/-- The release of the reservation an exchange has removed, if there was one (R212, R214). -/
def State.releaseOld (s : State) : Option Reservation → State
  | some r => s.sendRelease r.handle
  | none => s

/-- `exchange_hw(new)` (R213): the old triple and the state with the new one. -/
def State.exchangeHw (s : State) (new : Option Reservation) : Option Reservation × State :=
  (s.hw, { s with hw := new })

/-- `PortCall` (R210, R218): the request is sent under a number of its own and the OUT port waits. -/
def State.portCall (s : State) (req : PortReq) : State :=
  { s with
    outPhase := .awaitPort s.reqCount req
    portLog := s.portLog ++ [.request s.reqCount req]
    reqCount := s.reqCount + 1 }

/-- An OUTPUT is accepted and not complete (R78). -/
def OutPhase.holdsOutput (p : OutPhase) : Bool :=
  match p with
  | .idle => false
  | .pending w => decodeOut w == .output
  | .awaitPort _ (.output _ _ _ _ _) => true
  | .awaitPort _ (.reserve _ _) => false

/-- Bytes were written between an OUTPUT's acceptance and its completion (R78, R268 item 6). -/
def State.noteOutputWrite (s : State) (r : Region) : State :=
  if s.outPhase.holdsOutput then { s with outTouched := r :: s.outTouched } else s

/-! ## Memory as an agent other than the CTRL engine sees it -/

/-- The pending command is a MIX, and the address lies in its output region: any other reader gets
any value there until it completes (R68). -/
def State.mixPendingAt (s : State) (a : Nat) : Bool :=
  match s.ctrlLatch with
  | some w =>
    match decodeCtrl w with
    | .mix _ => s.mixRegion.contains a
    | _ => false
  | none => false

/-- The bytes at `a`, `a+1`, … as a host sees them, and how many draws that took: each byte of a
pending MIX's output region is any value (R68, item 11). -/
def State.seenBytes (s : State) (a d : Nat) : Nat → List Byte × Nat
  | 0 => ([], d)
  | n + 1 =>
    if s.mixPendingAt (wrapAddr a) then
      let rest := s.seenBytes (a + 1) (d + 1) n
      (freeByte d :: rest.1, rest.2)
    else
      let rest := s.seenBytes (a + 1) d n
      (s.mem.read (wrapAddr a) :: rest.1, rest.2)

/-- The register value a host has after a memory read of this width: a half is sign-extended, as `lh`
is (R101); a byte is zero-extended. log 16. -/
def loadValue (width : Width) (v : Nat) : Word :=
  match width with
  | .byte => BitVec.ofNat 32 v
  | .half => (BitVec.ofNat 16 v).signExtend 32
  | .word => BitVec.ofNat 32 v

/-- A host's read of bus memory (R10, R101). -/
def State.hostLoad (s : State) (a : Word) (width : Width) : State :=
  let r := s.seenBytes a.toNat s.draws width.bytes
  { s with readData := loadValue width (assemble s.cfg.sampleEndian r.1), draws := r.2 }

/-- A host's write reached this slot's buffer while the slot was not Free: the samples MIX reads from
the written bytes are any value (R77). -/
def Slot.noteHostWrite (r : Region) (sl : Slot) : Slot :=
  if sl.state != .free && sl.buffer.overlaps r then { sl with hostWrites := r :: sl.hostWrites } else sl

/-- A host's write of the low bytes of `v` to bus memory (R10, R101). -/
def State.hostStore (s : State) (a : Word) (width : Width) (v : Word) : State :=
  let r : Region := ⟨a, width.bytes⟩
  { s with
    mem := memWrite s.cfg.sampleEndian s.mem a.toNat width.bytes v.toNat
    slots := s.slots.map (Slot.noteHostWrite r) }.noteOutputWrite r

/-- The Port reads a byte of the buffer of the OUTPUT in flight (R210): a byte written since its acceptance, or
in a pending MIX's output region, is any value (R68, R78, item 12). Outside such a buffer there is
no such read, and nothing happens; log 12. -/
def State.portLoad (s : State) (a : Word) : State :=
  match s.outPhase with
  | .awaitPort _ (.output _ base samples _ _) =>
    if (⟨base, 2 * samples⟩ : Region).contains a.toNat then
      if anyContains s.outTouched a.toNat || s.mixPendingAt a.toNat then
        { s with portData := freeByte s.draws, draws := s.draws + 1 }
      else { s with portData := s.mem.read a.toNat }
    else s
  | _ => s

/-! ## Registers -/

/-- A host read returns `v` (R120). -/
def State.respond (s : State) (v : Word) : State := { s with readData := v }

/-- A write to a command or operand register of the CTRL port: done if the port is idle, else dropped
with OVR set (R121, R123). -/
def State.ctrlPortWrite (s : State) (accepted : State) : State :=
  if s.ctrlBusy then { s with ctrlOvr := true } else accepted

/-- A write to a command or operand register of the OUT port: done if the port is idle, else dropped
with OVR set (R121, R123). -/
def State.outPortWrite (s : State) (accepted : State) : State :=
  if s.outBusy then { s with outOvr := true } else accepted

/-- A channel-bank read (R127): the register's value, or any value while CTRL is busy. -/
def State.bankRead (s : State) (v : Word) : State :=
  if s.ctrlBusy then { s with readData := Config.freeWord s.draws, draws := s.draws + 1 }
  else s.respond v

/-! ## Reset -/

/-- The reset input (R260): the work outstanding is discarded, a held channel is released (R262), and
every element of the block takes its reset value (R261). Memory and what is outside the block
(events, the Port's record, request numbers, free values, a host's last data) stay; log 21. -/
def State.applyReset (s : State) : State :=
  let r := s.releaseOld s.hw
  { State.atReset s.cfg with
    mem := r.mem
    agenda := r.agenda
    readData := r.readData
    portData := r.portData
    portLog := r.portLog
    reqCount := r.reqCount
    draws := r.draws }

end Sys2Proof.Machine
end

