-- ==== Sys2Proof/Machine/Lifecycle.lean ====
section
/-! DEFINITION. NOP, the illegal control word, and the channel lifecycle commands (R128, R97, R150 to
R158). -/

namespace Sys2Proof.Machine

/-- `done`: the command ends with OK (R13). -/
def ctrlDone (s : State) : Result := .next (s.completeCtrl .ok)

/-- `fail C`: the command ends with a code and no effect (R232). -/
def ctrlFail (code : ResultCode) (s : State) : Result := .next (s.completeCtrl code)

/-- A channel command on handle `h` that changes one slot: the handle checks of R150, in the order of
R233, then the change. -/
def channelCommand (rejectFree : Bool) (h : BitVec 8) (s : State) (change : Slot → Slot) : Result :=
  if hh : h.toNat < 8 then
    let c : Fin 8 := ⟨h.toNat, hh⟩
    if rejectFree && (s.slot c).state == .free then ctrlFail .invalidChannel s
    else ctrlDone (s.setSlot c (change (s.slot c)))
  else ctrlFail .invalidChannel s

/-- The slot ALLOC picks: the least Free one (R151). -/
def State.firstFree (s : State) : Option (Fin 8) :=
  allSlots.find? (fun c => (s.slot c).state == .free)

/-- The slot ALLOC leaves (R151). -/
def allocatedSlot (s : State) : Slot :=
  { Slot.freeSlot with
    state := .idle
    looping := s.argLooping
    volL := volIn s.cfg s.argVolL
    volR := volIn s.cfg s.argVolR }

/-- The change SUBMIT makes (R153). -/
def submittedSlot (base frames : Word) (sl : Slot) : Slot :=
  { sl with
    bufBase := base
    bufLen := frames
    position := 0
    fadeLevel := BitVec.ofNat 32 fadeFull
    fadeStep := 0
    state := .playing
    hostWrites := [] }

/-- The change SET_VOLUME makes (R154). -/
def volumeSlot (l r : Word) (sl : Slot) : Slot := { sl with volL := l, volR := r }

/-- The change FADE_OUT with length `n` makes (R155). -/
def fadedOutSlot (r : Rounding) (n : Nat) (sl : Slot) : Slot :=
  if n = 0 then { sl with fadeLevel := 0, fadeStep := 0, state := .idle }
  else { sl with fadeStep := BitVec.ofInt 32 (quot r (-fadeFull) n), state := .fadingOut }

/-- The change FADE_IN with length `n` makes (R156). -/
def fadedInSlot (r : Rounding) (n : Nat) (sl : Slot) : Slot :=
  if n = 0 then { sl with fadeLevel := BitVec.ofNat 32 fadeFull, fadeStep := 0 }
  else { sl with fadeLevel := 0, fadeStep := BitVec.ofInt 32 (quot r fadeFull n) }

/-- NOP (R128): CH is ignored (R99). -/
def execNop (_ch : BitVec 8) (s : State) : Result := ctrlDone s

/-- ALLOC (R151): CH is ignored (R99). -/
def execAlloc (_ch : BitVec 8) (s : State) : Result :=
  match s.firstFree with
  | none => ctrlFail .noFreeChannels s
  | some c => ctrlDone { s.setSlot c (allocatedSlot s) with ctrlResult := BitVec.ofNat 32 c }

/-- FREE (R152): the slot becomes FREE_SLOT whatever its state. -/
def execFree (h : BitVec 8) (s : State) : Result :=
  channelCommand false h s (fun _ => Slot.freeSlot)

/-- SUBMIT (R153). -/
def execSubmit (h : BitVec 8) (s : State) : Result :=
  channelCommand true h s (submittedSlot s.argBase s.argFrames)

/-- SET_VOLUME (R154). -/
def execSetVolume (h : BitVec 8) (s : State) : Result :=
  channelCommand true h s (volumeSlot (volIn s.cfg s.argVolL) (volIn s.cfg s.argVolR))

/-- FADE_OUT (R155). -/
def execFadeOut (h : BitVec 8) (s : State) : Result :=
  channelCommand true h s (fadedOutSlot s.cfg.divRounding s.argCount)

/-- FADE_IN (R156). -/
def execFadeIn (h : BitVec 8) (s : State) : Result :=
  channelCommand true h s (fadedInSlot s.cfg.divRounding s.argCount)

/-- An illegal control word (R97): ILLEGAL_COMMAND, and nothing else changes. -/
def execIllegalCtrl (_w : Word) (s : State) : Result := ctrlFail .illegalCommand s

end Sys2Proof.Machine
end

