-- ==== Sys2Proof/Machine/Mixing.lean ====
section
/-! DEFINITION. SET_SAMPLE_COUNT and MIX: the gain formula, the saturating accumulation, the cursor,
the fade update and the output write (R180 to R189). -/

namespace Sys2Proof.Machine

/-- SET_SAMPLE_COUNT (R180): CH is ignored (R99). -/
def execSetSampleCount (_ch : BitVec 8) (s : State) : Result :=
  ctrlDone { s with sampleCount := sampleCountFor s.cfg s.argCount }

/-- The gain formula (R185): three quotients in this order, then saturation. -/
def scale (r : Rounding) (src vol g mv : Int) : Int :=
  let t2 := quot r (src * vol) unity
  let t4 := quot r (t2 * g) fadeMax
  let t6 := quot r (t4 * mv) unity
  sat16 t6

/-- The gain of a pass (R181): `fade_level >> 16`. -/
def Slot.gain (sl : Slot) : Int := (sl.fadeLevel.toNat / 2 ^ 16 : Nat)

/-- The address of the left sample of frame `k` of a buffer at `b` (R63, R184). -/
def frameAddr (b : Word) (k : Nat) : Nat := wrapAddr (b.toNat + 4 * k)

/-- A sample of the slot's buffer at address `a`, and the counter of draws after it (R184): a sample
with a byte the host has written since SUBMIT is any value (R77). -/
def fetchSample (s : State) (sl : Slot) (a d : Nat) : Int × Nat :=
  if anyContains sl.hostWrites a || anyContains sl.hostWrites (wrapAddr (a + 1)) then
    (((Config.freeWord d).setWidth 16).toInt, d + 1)
  else ((BitVec.ofNat 16 (memRead s.cfg.sampleEndian s.mem a 2)).toInt, d)

/-- One accumulator frame: the left and the right sample of an output frame. -/
abbrev AccFrame := Int × Int

/-- What one slot leaves of the accumulator, of itself and of the draw counter. -/
structure Turn where
  acc : List AccFrame
  slot : Slot
  draws : Nat
deriving DecidableEq, Repr

/-- One saturating addition of a scaled sample (R187). -/
def accumulate (s : State) (g acc src : Int) (vol : Word) : Int :=
  sat16 (acc + scale s.cfg.divRounding src vol.toInt g s.masterVol.toInt)

/-- The frame at the slot's cursor added into the accumulator frame `f`, and the cursor moved on
(R181). -/
def playFrame (s : State) (g : Int) (sl : Slot) (d : Nat) (f : AccFrame) : AccFrame × Slot × Nat :=
  let a := frameAddr sl.bufBase sl.position.toNat
  let l := fetchSample s sl a d
  let r := fetchSample s sl (wrapAddr (a + 2)) l.2
  ((accumulate s g f.1 l.1 sl.volL, accumulate s g f.2 r.1 sl.volR),
   { sl with position := sl.position + 1 }, r.2)

/-- The frame loop of a slot with a non-empty buffer over the output frames still to come (R181,
R183). -/
def frameLoop (s : State) (g : Int) : Slot → Nat → List AccFrame → Turn
  | sl, d, [] => ⟨[], sl, d⟩
  | sl, d, f :: rest =>
    if sl.bufLen.toNat ≤ sl.position.toNat then
      if sl.looping then
        if s.cfg.loopWrapGap then
          let t := frameLoop s g { sl with position := 0 } d rest
          { t with acc := f :: t.acc }
        else
          let p := playFrame s g { sl with position := 0 } d f
          let t := frameLoop s g p.2.1 p.2.2 rest
          { t with acc := p.1 :: t.acc }
      else ⟨f :: rest, { sl with state := .idle }, d⟩
    else
      let p := playFrame s g sl d f
      let t := frameLoop s g p.2.1 p.2.2 rest
      { t with acc := p.1 :: t.acc }

/-- The level after a pass (R188): `clamp(fade_level + fade_step, 0, FADE_FULL)`, exactly. -/
def nextLevel (sl : Slot) : Int := clamp (sl.fadeLevel.toNat + sl.fadeStep.toInt) 0 fadeFull

/-- `fade_update` (R188). -/
def fadeUpdate (sl : Slot) : Slot :=
  let lvl := nextLevel sl
  let sl' := { sl with fadeLevel := BitVec.ofInt 32 lvl }
  if sl.state = .fadingOut ∧ lvl = 0 then { sl' with state := .idle }
  else if 0 < sl.fadeStep.toInt ∧ lvl = fadeFull then { sl' with fadeStep := 0 }
  else sl'

/-- The turn of slot `c` in a pass (R181, R182). -/
def mixSlot (p : State × List AccFrame) (c : Fin 8) : State × List AccFrame :=
  let sl := p.1.slot c
  if !sl.active then p
  else if sl.bufLen.toNat = 0 then (p.1.setSlot c { sl with state := .idle }, p.2)
  else
    let t := frameLoop p.1 sl.gain sl p.1.draws p.2
    ({ p.1.setSlot c (fadeUpdate t.slot) with draws := t.draws }, t.acc)

/-- The pass over every slot in ascending order, from accumulators of zero (R181). -/
def mixPass (s : State) : State × List AccFrame :=
  allSlots.foldl mixSlot (s, List.replicate s.sampleCount.toNat (0, 0))

/-- The output write (R189): left then right of every frame, from address `o` on. -/
def writeFrames (e : Endian) (m : Memory) (o : Nat) : List AccFrame → Memory
  | [] => m
  | f :: rest =>
    let m1 := memWrite e m o 2 (BitVec.ofInt 16 f.1).toNat
    let m2 := memWrite e m1 (o + 2) 2 (BitVec.ofInt 16 f.2).toNat
    writeFrames e m2 (o + 4) rest

/-- MIX (R181): CH is ignored (R99); every read comes before every write (R73). -/
def execMix (_ch : BitVec 8) (s : State) : Result :=
  let p := mixPass s
  let written : State :=
    { p.1 with mem := writeFrames s.cfg.sampleEndian s.mem s.argBase.toNat p.2 }
  ctrlDone (written.noteOutputWrite s.mixRegion)

end Sys2Proof.Machine
end

