-- ==== Sys2Proof/Machine/OutPort.lean ====
section
/-! DEFINITION. The output-port commands up to their first Port request, and what the Port's answer
does (R97, R210 to R218). -/

namespace Sys2Proof.Machine

/-- An output-port command ends with OK. -/
def outDone (s : State) : Result := .next (s.completeOut .ok)

/-- An output-port command ends with a code and no effect (R232). -/
def outFail (code : ResultCode) (s : State) : Result := .next (s.completeOut code)

/-- ONOP (R215). -/
def execOnop (s : State) : Result := outDone s

/-- RESERVE up to its request (R212, R218): the frame count is SAMPLE_COUNT at this step. -/
def execReserve (s : State) : Result := .next (s.portCall (.reserve s.sampleCount .stereoS16))

/-- RELEASE (R214): the handle is swapped out and released if there was one. -/
def execRelease (s : State) : Result :=
  let x := s.exchangeHw none
  outDone (x.2.releaseOld x.1)

/-- OUTPUT up to its request (R216, R218): the length check, then the reservation check, then the Port
at full volume with the reservation's size. -/
def execOutput (s : State) : Result :=
  if s.outLen < 2 * s.sampleCount.toNat then outFail .invalidArgument s
  else
    match s.hw with
    | none => outFail .noHwChannel s
    | some r =>
      .next (s.portCall (.output r.handle s.outBase (2 * r.frames.toNat)
        (BitVec.ofNat 32 unity) (BitVec.ofNat 32 unity)))

/-- An illegal output-port word (R97): ILLEGAL_COMMAND, and nothing else changes. -/
def execIllegalOut (_w : Word) (s : State) : Result := outFail .illegalCommand s

/-- The end of a RESERVE of `f` frames on the Port's answer (R212). -/
def finishReserve (s : State) (f : Word) : PortAnswer → State
  | .err e => s.audioError e
  | .ok h =>
    let x := s.exchangeHw (some ⟨h, f⟩)
    (x.2.releaseOld x.1).completeOut .ok

/-- The end of an OUTPUT on the Port's answer (R216). -/
def finishOutput (s : State) : PortAnswer → State
  | .err e => s.audioError e
  | .ok _ => s.completeOut .ok

/-- The Port's answer to the request numbered `id` (R218): the command that waits for it completes in
this step. An answer to a request the block no longer waits for is ignored (R262 item 3). -/
def State.portAnswer (s : State) (id : Nat) (ans : PortAnswer) : State :=
  match s.outPhase with
  | .awaitPort k req =>
    if id = k then
      match req with
      | .reserve f _ => finishReserve s f ans
      | .output _ _ _ _ _ => finishOutput s ans
    else s
  | _ => s

end Sys2Proof.Machine
end

