-- ==== Sys2Proof/Machine/Registers.lean ====
section
/-! DEFINITION. One access to each register of the window (R23, R39, R43, R120 to R134). -/

namespace Sys2Proof.Machine

/-- `wr CTRL_CMD`: accepted into the pending latch, or dropped (R121). -/
def execWrCtrlCmd (w : Word) (s : State) : Result := .next (s.ctrlPortWrite { s with ctrlLatch := some w })

/-- `rd CTRL_CMD`: reads 0 (R24, R133). -/
def execRdCtrlCmd (s : State) : Result := .next (s.respond 0)

/-- `wr CTRL_ARG0`: stored, or dropped (R123). -/
def execWrCtrlArg0 (w : Word) (s : State) : Result := .next (s.ctrlPortWrite { s with ctrlArg0 := w })

/-- `rd CTRL_ARG0` (R124). -/
def execRdCtrlArg0 (s : State) : Result := .next (s.respond s.ctrlArg0)

/-- `wr CTRL_ARG1`: stored, or dropped (R123). -/
def execWrCtrlArg1 (w : Word) (s : State) : Result := .next (s.ctrlPortWrite { s with ctrlArg1 := w })

/-- `rd CTRL_ARG1` (R124). -/
def execRdCtrlArg1 (s : State) : Result := .next (s.respond s.ctrlArg1)

/-- `wr CTRL_ARG2`: stored, or dropped (R123). -/
def execWrCtrlArg2 (w : Word) (s : State) : Result := .next (s.ctrlPortWrite { s with ctrlArg2 := w })

/-- `rd CTRL_ARG2` (R124). -/
def execRdCtrlArg2 (s : State) : Result := .next (s.respond s.ctrlArg2)

/-- `wr CTRL_STATUS`: bit 9 clears OVR (R130). -/
def execWrCtrlStatus (w : Word) (s : State) : Result := .next { s with ctrlOvr := ovrAfterWrite s.ctrlOvr w }

/-- `rd CTRL_STATUS` (R129). -/
def execRdCtrlStatus (s : State) : Result := .next (s.respond s.ctrlStatus)

/-- `wr CTRL_RESULT`: ignored (R133). -/
def execWrCtrlResult (_w : Word) (s : State) : Result := .next s

/-- `rd CTRL_RESULT` (R133). -/
def execRdCtrlResult (s : State) : Result := .next (s.respond s.ctrlResult)

/-- `wr MASTER_VOL`: clamped, never dropped (R125). -/
def execWrMasterVol (w : Word) (s : State) : Result := .next { s with masterVol := masterVolIn w }

/-- `rd MASTER_VOL` (R126). -/
def execRdMasterVol (s : State) : Result := .next (s.respond s.masterVol)

/-- `wr SAMPLE_COUNT`: ignored (R133). -/
def execWrSampleCount (_w : Word) (s : State) : Result := .next s

/-- `rd SAMPLE_COUNT` (R133). -/
def execRdSampleCount (s : State) : Result := .next (s.respond s.sampleCount)

/-- `wr CONFIG`: ignored (R133). -/
def execWrConfig (_w : Word) (s : State) : Result := .next s

/-- `rd CONFIG` (R29, R133). -/
def execRdConfig (s : State) : Result := .next (s.respond configWord)

/-- `wr CTRL_LOCK`: bit 0 is stored (R132). -/
def execWrCtrlLock (w : Word) (s : State) : Result := .next { s with lockHeld := w.getLsbD 0 }

/-- `rd CTRL_LOCK`: test-and-set; the old HELD is returned (R131). -/
def execRdCtrlLock (s : State) : Result :=
  .next ({ s with lockHeld := true }.respond (BitVec.ofBool s.lockHeld |>.setWidth 32))

/-- `wr OUT_CMD`: accepted into phase Pending, or dropped (R121). The record of bytes written since
acceptance starts empty (R78). -/
def execWrOutCmd (w : Word) (s : State) : Result :=
  .next (s.outPortWrite { s with outPhase := .pending w, outTouched := [] })

/-- `rd OUT_CMD`: reads 0 (R32, R133). -/
def execRdOutCmd (s : State) : Result := .next (s.respond 0)

/-- `wr OUT_ARG0`: stored, or dropped (R123). -/
def execWrOutArg0 (w : Word) (s : State) : Result := .next (s.outPortWrite { s with outArg0 := w })

/-- `rd OUT_ARG0` (R124). -/
def execRdOutArg0 (s : State) : Result := .next (s.respond s.outArg0)

/-- `wr OUT_ARG1`: stored, or dropped (R123). -/
def execWrOutArg1 (w : Word) (s : State) : Result := .next (s.outPortWrite { s with outArg1 := w })

/-- `rd OUT_ARG1` (R124). -/
def execRdOutArg1 (s : State) : Result := .next (s.respond s.outArg1)

/-- `wr OUT_STATUS`: bit 9 clears OVR (R130). -/
def execWrOutStatus (w : Word) (s : State) : Result := .next { s with outOvr := ovrAfterWrite s.outOvr w }

/-- `rd OUT_STATUS` (R129). -/
def execRdOutStatus (s : State) : Result := .next (s.respond s.outStatus)

/-- `wr OUT_ERRCODE`: ignored (R133). -/
def execWrOutErrcode (_w : Word) (s : State) : Result := .next s

/-- `rd OUT_ERRCODE` (R133). -/
def execRdOutErrcode (s : State) : Result := .next (s.respond s.outErrcode)

/-- `wr HW_STATE`: ignored (R133). -/
def execWrHwState (_w : Word) (s : State) : Result := .next s

/-- `rd HW_STATE` (R35, R133). -/
def execRdHwState (s : State) : Result := .next (s.respond s.hwState)

/-- `wr HW_HANDLE`: ignored (R133). -/
def execWrHwHandle (_w : Word) (s : State) : Result := .next s

/-- `rd HW_HANDLE` (R35, R133). -/
def execRdHwHandle (s : State) : Result := .next (s.respond s.hwHandle)

/-- `wr HW_FRAMES`: ignored (R133). -/
def execWrHwFrames (_w : Word) (s : State) : Result := .next s

/-- `rd HW_FRAMES` (R35, R133). -/
def execRdHwFrames (s : State) : Result := .next (s.respond s.hwFrames)

/-- `rd CH_STATE` of slot `c` (R39, R127). -/
def execRdChState (c : Fin 8) (s : State) : Result := .next (s.bankRead (s.slot c).stateWord)

/-- `rd CH_VOL_L` of slot `c` (R39, R127). -/
def execRdChVolL (c : Fin 8) (s : State) : Result := .next (s.bankRead (s.slot c).volL)

/-- `rd CH_VOL_R` of slot `c` (R39, R127). -/
def execRdChVolR (c : Fin 8) (s : State) : Result := .next (s.bankRead (s.slot c).volR)

/-- `rd CH_BUF_BASE` of slot `c` (R39, R127). -/
def execRdChBufBase (c : Fin 8) (s : State) : Result := .next (s.bankRead (s.slot c).bufBase)

/-- `rd CH_BUF_LEN` of slot `c` (R39, R127). -/
def execRdChBufLen (c : Fin 8) (s : State) : Result := .next (s.bankRead (s.slot c).bufLen)

/-- `rd CH_POSITION` of slot `c` (R39, R127). -/
def execRdChPosition (c : Fin 8) (s : State) : Result := .next (s.bankRead (s.slot c).position)

/-- `rd CH_FADE_LEVEL` of slot `c` (R39, R127). -/
def execRdChFadeLevel (c : Fin 8) (s : State) : Result := .next (s.bankRead (s.slot c).fadeLevel)

/-- `rd CH_FADE_STEP` of slot `c` (R39, R127). -/
def execRdChFadeStep (c : Fin 8) (s : State) : Result := .next (s.bankRead (s.slot c).fadeStep)

/-- A write to a bank register: ignored (R39, R127). -/
def execWrChBank (_c : Fin 8) (_k : BitVec 5) (_w : Word) (s : State) : Result := .next s

/-- An access to a reserved offset (R43): reads 0, writes are ignored. -/
def execReserved (_off : BitVec 9) (a : Access) (s : State) : Result :=
  match a with
  | .read => .next (s.respond 0)
  | .write _ => .next s

end Sys2Proof.Machine
end

