-- ==== Sys2Proof/Machine/Dispatch.lean ====
section
/-! DEFINITION. The meaning of each instruction: one arm per constructor of `Instr`. -/

namespace Sys2Proof.Machine

def exec (i : Instr) (s : State) : Host.Outcome State Fault Refusal :=
  match i with
  | .nop ch => Sys2Proof.Machine.execNop ch s
  | .alloc ch => Sys2Proof.Machine.execAlloc ch s
  | .free h => Sys2Proof.Machine.execFree h s
  | .submit h => Sys2Proof.Machine.execSubmit h s
  | .setVolume h => Sys2Proof.Machine.execSetVolume h s
  | .fadeOut h => Sys2Proof.Machine.execFadeOut h s
  | .fadeIn h => Sys2Proof.Machine.execFadeIn h s
  | .setSampleCount ch => Sys2Proof.Machine.execSetSampleCount ch s
  | .mix ch => Sys2Proof.Machine.execMix ch s
  | .illegalCtrl w => Sys2Proof.Machine.execIllegalCtrl w s
  | .onop => Sys2Proof.Machine.execOnop s
  | .reserve => Sys2Proof.Machine.execReserve s
  | .release => Sys2Proof.Machine.execRelease s
  | .output => Sys2Proof.Machine.execOutput s
  | .illegalOut w => Sys2Proof.Machine.execIllegalOut w s
  | .wrCtrlCmd w => Sys2Proof.Machine.execWrCtrlCmd w s
  | .rdCtrlCmd => Sys2Proof.Machine.execRdCtrlCmd s
  | .wrCtrlArg0 w => Sys2Proof.Machine.execWrCtrlArg0 w s
  | .rdCtrlArg0 => Sys2Proof.Machine.execRdCtrlArg0 s
  | .wrCtrlArg1 w => Sys2Proof.Machine.execWrCtrlArg1 w s
  | .rdCtrlArg1 => Sys2Proof.Machine.execRdCtrlArg1 s
  | .wrCtrlArg2 w => Sys2Proof.Machine.execWrCtrlArg2 w s
  | .rdCtrlArg2 => Sys2Proof.Machine.execRdCtrlArg2 s
  | .wrCtrlStatus w => Sys2Proof.Machine.execWrCtrlStatus w s
  | .rdCtrlStatus => Sys2Proof.Machine.execRdCtrlStatus s
  | .wrCtrlResult w => Sys2Proof.Machine.execWrCtrlResult w s
  | .rdCtrlResult => Sys2Proof.Machine.execRdCtrlResult s
  | .wrMasterVol w => Sys2Proof.Machine.execWrMasterVol w s
  | .rdMasterVol => Sys2Proof.Machine.execRdMasterVol s
  | .wrSampleCount w => Sys2Proof.Machine.execWrSampleCount w s
  | .rdSampleCount => Sys2Proof.Machine.execRdSampleCount s
  | .wrConfig w => Sys2Proof.Machine.execWrConfig w s
  | .rdConfig => Sys2Proof.Machine.execRdConfig s
  | .wrCtrlLock w => Sys2Proof.Machine.execWrCtrlLock w s
  | .rdCtrlLock => Sys2Proof.Machine.execRdCtrlLock s
  | .wrOutCmd w => Sys2Proof.Machine.execWrOutCmd w s
  | .rdOutCmd => Sys2Proof.Machine.execRdOutCmd s
  | .wrOutArg0 w => Sys2Proof.Machine.execWrOutArg0 w s
  | .rdOutArg0 => Sys2Proof.Machine.execRdOutArg0 s
  | .wrOutArg1 w => Sys2Proof.Machine.execWrOutArg1 w s
  | .rdOutArg1 => Sys2Proof.Machine.execRdOutArg1 s
  | .wrOutStatus w => Sys2Proof.Machine.execWrOutStatus w s
  | .rdOutStatus => Sys2Proof.Machine.execRdOutStatus s
  | .wrOutErrcode w => Sys2Proof.Machine.execWrOutErrcode w s
  | .rdOutErrcode => Sys2Proof.Machine.execRdOutErrcode s
  | .wrHwState w => Sys2Proof.Machine.execWrHwState w s
  | .rdHwState => Sys2Proof.Machine.execRdHwState s
  | .wrHwHandle w => Sys2Proof.Machine.execWrHwHandle w s
  | .rdHwHandle => Sys2Proof.Machine.execRdHwHandle s
  | .wrHwFrames w => Sys2Proof.Machine.execWrHwFrames w s
  | .rdHwFrames => Sys2Proof.Machine.execRdHwFrames s
  | .rdChState c => Sys2Proof.Machine.execRdChState c s
  | .rdChVolL c => Sys2Proof.Machine.execRdChVolL c s
  | .rdChVolR c => Sys2Proof.Machine.execRdChVolR c s
  | .rdChBufBase c => Sys2Proof.Machine.execRdChBufBase c s
  | .rdChBufLen c => Sys2Proof.Machine.execRdChBufLen c s
  | .rdChPosition c => Sys2Proof.Machine.execRdChPosition c s
  | .rdChFadeLevel c => Sys2Proof.Machine.execRdChFadeLevel c s
  | .rdChFadeStep c => Sys2Proof.Machine.execRdChFadeStep c s
  | .wrChBank c k w => Sys2Proof.Machine.execWrChBank c k w s
  | .reserved off a => Sys2Proof.Machine.execReserved off a s

end Sys2Proof.Machine
end

