-- ==== Sys2Proof/Machine/Agents.lean ====
section
/-! DEFINITION. The steps of the agents (R10): a host's access, the CTRL engine, the OUT engine, the
Port, reset; and what runs when no event is left. -/

namespace Sys2Proof.Machine

/-- The model fault of a transfer the decoder rejects (R66, R247). -/
def decodeFault : DecodeError → Fault
  | .wrongWidth => .wrongWidth
  | .misaligned => .misaligned

/-- A transfer's instruction is run, or the machine stops with the fault its rejection names. -/
def execRaw (r : Raw) (s : State) : Result :=
  match decode r with
  | .ok i => exec i s
  | .error e => .fault (decodeFault e)

/-- A host access (R120): one that touches the register window is a register access at its offset
(R23, R66), any other an access to bus memory (R101); log 15. -/
def hostAccess (a : BusAccess) (s : State) : Result :=
  if (windowOf s.cfg).overlaps ⟨a.addr, a.width.bytes⟩ then
    execRaw (.mmio ((a.addr - s.cfg.mixerBase).setWidth 9) a.width a.access) s
  else
    match a.access with
    | .read => .next (s.hostLoad a.addr a.width)
    | .write v => .next (s.hostStore a.addr a.width v)

/-- The CTRL engine's step (R122): enabled while the latch is full; log 19. -/
def ctrlStep (s : State) : Result :=
  match s.ctrlLatch with
  | some w => execRaw (.ctrl w) s
  | none => .next s

/-- The OUT engine's step (R218): enabled in phase Pending; log 19. -/
def outStep (s : State) : Result :=
  match s.outPhase with
  | .pending w => execRaw (.out w) s
  | _ => .next s

/-- The step an event stands for. -/
def runEvent (e : Event) (s : State) : Result :=
  match e with
  | .host a => hostAccess a s
  | .ctrlEngine => ctrlStep s
  | .outEngine => outStep s
  | .portAnswer id ans => .next (s.portAnswer id ans)
  | .portRead a => .next (s.portLoad a)
  | .reset => .next s.applyReset

/-- The OUT engine has a word to start on. -/
def State.outPending (s : State) : Bool :=
  match s.outPhase with
  | .pending _ => true
  | _ => false

/-- No event is left: an enabled engine runs (R276), which one being open where both are (R236); with
neither enabled the machine waits; log 2. -/
def idleStep (s : State) : Result :=
  if s.ctrlBusy && s.outPending then
    let pick := (Config.freeWord s.draws).getLsbD 0
    if pick then ctrlStep (s.drawn 1) else outStep (s.drawn 1)
  else if s.ctrlBusy then ctrlStep s
  else outStep s

/-- A register access of a host, at an offset of the window. -/
def registerAccess (cfg : Config) (off : BitVec 9) (a : Access) : Event :=
  .host ⟨cfg.mixerBase + off.setWidth 32, .word, a⟩

/-- A transfer placed so that the next step runs it: a command in its port's latch with the engine's
step next, a register access as the next host access; log 17. -/
def State.placeRaw (s : State) (r : Raw) : State :=
  match r with
  | .ctrl w => { s with ctrlLatch := some w, agenda := .ctrlEngine :: s.agenda }
  | .out w => { s with outPhase := .pending w, agenda := .outEngine :: s.agenda }
  | .mmio off _ a => { s with agenda := registerAccess s.cfg off a :: s.agenda }

end Sys2Proof.Machine
end

