-- ==== Sys2Proof/Machine/Step.lean ====
section
/-! DEFINITION. One step of the machine, and the placing of an instruction for the next step. -/

namespace Sys2Proof.Machine

/-- One step: the next event of the agenda, or the engines' own step when it is empty. -/
def step (s : State) : Host.Outcome State Fault Refusal :=
  match s.agenda with
  | e :: rest => runEvent e { s with agenda := rest }
  | [] => idleStep s

/-- The instruction of a number as the opcode table numbers it, placed so that the very next step runs
it; a number that is no transfer places nothing. log 17. -/
def State.withFetchWord (s : State) (nbits w : Nat) : State :=
  match rawOfTable nbits w with
  | some r => s.placeRaw r
  | none => s

end Sys2Proof.Machine
end

