-- ==== Sys2Proof/Safety.lean ====
section
/-! DEFINITION. What claims are stated about: the invariants of the state (R25 to R40) and the host
obligations of R268 as predicates on the event that would break one. -/

namespace Sys2Proof.Machine

/-- The invariants of one slot: R40 items 1 to 4, the range of `fade_step` (R37), and that a Free slot
is FREE_SLOT (R152, R158). -/
abbrev Slot.Inv (sl : Slot) : Prop :=
  sl.position.toNat ≤ sl.bufLen.toNat ∧
  sl.fadeLevel.toNat ≤ fadeFull ∧
  sl.bufBase.getLsbD 0 = false ∧
  -(fadeFull : Int) ≤ sl.fadeStep.toInt ∧
  sl.fadeStep.toInt ≤ fadeFull ∧
  (sl.state = .playing → 0 ≤ sl.fadeStep.toInt) ∧
  (sl.state = .free → sl = Slot.freeSlot)

/-- A result a control command can complete with (R231). -/
def ctrlResults : List ResultCode := [.ok, .noFreeChannels, .invalidChannel, .illegalCommand]

/-- A result an output-port command can complete with (R231). -/
def outResults : List ResultCode := [.ok, .audioError, .invalidArgument, .noHwChannel, .illegalCommand]

/-- The request the OUT port waits for has a number that was given out. -/
def State.awaitedWasSent (s : State) : Bool :=
  match s.outPhase with
  | .awaitPort id _ => decide (id < s.reqCount)
  | _ => true

/-- The invariant of the machine: MASTER_VOL in [0, 0x8000] (R27), SAMPLE_COUNT a multiple of 64 in
[0, `MAX_SAMPLE_COUNT`] (R28), result codes of the port's own (R231), every slot's invariants (R40),
memory in canonical form, parameters in their domains (R8). -/
abbrev State.Inv (s : State) : Prop :=
  s.cfg.wf = true ∧
  s.masterVol.toNat ≤ unity ∧
  s.sampleCount.toNat % sampleGranule = 0 ∧
  s.sampleCount.toNat ≤ s.cfg.maxSampleCount.toNat ∧
  s.ctrlCode ∈ ctrlResults ∧
  s.outCode ∈ outResults ∧
  s.awaitedWasSent = true ∧
  (∀ c : Fin 8, (s.slot c).Inv) ∧
  Memory.wf s.mem = true

/-! ## Host obligations (R268)

The machine runs on when one is broken (log 24); a claim that needs one takes it as a premise. Items
3, 4, 9 and 10 speak of devices, caches and of what hosts have agreed on: nothing in the state shows
them. -/

/-- Item 1: a host write keeps off the buffers of non-Free slots. -/
def keepsBuffersStable (s : State) (a : BusAccess) : Bool :=
  match a.access with
  | .read => true
  | .write _ => (List.finRange 8).all fun c =>
      (s.slot c).state == .free || !((s.slot c).buffer.overlaps ⟨a.addr, a.width.bytes⟩)

/-- Item 2: a MIX's output region keeps off the register window. -/
def outputRegionClear (s : State) : Bool := !(s.mixRegion.overlaps (windowOf s.cfg))

/-- Item 2: a host does not read a pending MIX's output region. -/
def keepsOffPendingMix (s : State) (a : BusAccess) : Bool :=
  (List.range a.width.bytes).all fun k => !s.mixPendingAt (wrapAddr (a.addr.toNat + k))

/-- Item 5: an access that touches the window is an aligned 32-bit access. -/
def wellFormedAccess (s : State) (a : BusAccess) : Bool :=
  !((windowOf s.cfg).overlaps ⟨a.addr, a.width.bytes⟩) ||
    (a.width == .word && a.addr.toNat % 4 == 0)

/-- The buffer of an OUTPUT from its acceptance on (R78): the operands of a pending one cannot change. -/
def State.outputBuffer (s : State) : Option Region :=
  match s.outPhase with
  | .idle => none
  | .pending w =>
    if decodeOut w == .output then s.hw.map (fun r => ⟨s.outBase, 4 * r.frames.toNat⟩) else none
  | .awaitPort _ (.output _ base samples _ _) => some ⟨base, 2 * samples⟩
  | .awaitPort _ (.reserve _ _) => none

/-- Item 6: a host write keeps off the buffer of an OUTPUT that is not complete. -/
def keepsOffOutput (s : State) (a : BusAccess) : Bool :=
  match s.outputBuffer, a.access with
  | some r, .write _ => !(r.overlaps ⟨a.addr, a.width.bytes⟩)
  | _, _ => true

/-- Item 7: the reservation was made with the current sample count. -/
def reservationCurrent (s : State) : Bool :=
  match s.hw with
  | some r => r.frames == s.sampleCount
  | none => true

/-- Item 8: the channel volumes are in [0, 0x8000]. -/
def volumesInRange (s : State) : Bool :=
  (List.finRange 8).all fun c =>
    decide ((s.slot c).volL.toNat ≤ unity) && decide ((s.slot c).volR.toNat ≤ unity)

/-- The next event keeps the obligations the state shows. -/
def State.hostObeys (s : State) : Bool :=
  match s.agenda with
  | .host a :: _ =>
    wellFormedAccess s a && keepsBuffersStable s a && keepsOffPendingMix s a && keepsOffOutput s a
  | _ => true

end Sys2Proof.Machine
end

