-- ==== Sys2Proof/Certificates/Slice0/Obligations.lean ====
section
/-! DEFINITION. The statements about the model, for the provers. What a statement compares the model with
is written here from the rules, in numbers where it can be, and not by the model's own operations. -/

namespace Sys2Proof.Statements

open Sys2Proof.Machine

/-! ## Values the rules give -/

/-- The code of a result (R231). -/
def codeNumber : ResultCode → Nat
  | .ok => 0
  | .noFreeChannels => 1
  | .invalidChannel => 2
  | .audioError => 3
  | .alreadyRunning => 4
  | .invalidArgument => 5
  | .noHwChannel => 6
  | .illegalCommand => 7

/-- The encoding of a channel state (R38). -/
def stateNumber : SlotState → Nat
  | .free => 0
  | .idle => 1
  | .playing => 2
  | .fadingOut => 3

/-- A status register (R129): `(OVR << 9) | (BUSY << 8) | RESULT`. -/
def statusValue (ovr busy : Bool) (code : ResultCode) : Word :=
  BitVec.ofNat 32 (512 * ovr.toNat + 256 * busy.toNat + codeNumber code)

/-- A signed word brought into [0, 0x8000] (R125, R157). -/
def clampedVolume (w : Word) : Word :=
  if w.toInt < 0 then 0 else if 0x8000 < w.toInt then 0x8000 else w

/-- `vol_in` (R157). -/
def storedVolume (cfg : Config) (w : Word) : Word := if cfg.clampChannelVolume then clampedVolume w else w

/-- `m` is `roundup64(n)`: the least multiple of 64 that is at least `n` (R12). -/
def IsRoundUp64 (n m : Nat) : Prop := 64 ∣ m ∧ n ≤ m ∧ ∀ k, 64 ∣ k → n ≤ k → m ≤ k

/-- The size of the step FADE_OUT takes for `N` passes (R160). -/
def fadeStepSize (r : Rounding) (N : Nat) : Nat :=
  match r with
  | .towardZero => 2 ^ 24 / N
  | .floor => (2 ^ 24 + (N - 1)) / N

/-- FREE_SLOT (R158), with nothing written by a host. -/
def freeSlotValue : Slot where
  state := .free
  looping := false
  volL := 0
  volR := 0
  bufBase := 0
  bufLen := 0
  position := 0
  fadeLevel := 0x01000000
  fadeStep := 0
  hostWrites := []

/-! ## Decoding by arithmetic on the word -/

/-- `decode_ctrl` (R100) of a word: RSV is its upper half, OP its lowest byte, CH the byte between. -/
def controlCommand (w : Word) : Instr :=
  let op := w.toNat % 256
  let ch : BitVec 8 := BitVec.ofNat 8 (w.toNat / 256 % 256)
  if w.toNat / 65536 ≠ 0 then .illegalCtrl w
  else if op = 0 then .nop ch
  else if op = 1 then .alloc ch
  else if op = 2 then .free ch
  else if op = 3 then .submit ch
  else if op = 4 then .setVolume ch
  else if op = 5 then .fadeOut ch
  else if op = 6 then .fadeIn ch
  else if op = 7 then .setSampleCount ch
  else if op = 8 then .mix ch
  else .illegalCtrl w

/-- `decode_out` (R100) of a word: the words 0 to 3, and no other. -/
def outputCommand (w : Word) : Instr :=
  if w.toNat = 0 then .onop
  else if w.toNat = 1 then .reserve
  else if w.toNat = 2 then .release
  else if w.toNat = 3 then .output
  else .illegalOut w

/-- The result of a control word in a state, the first matching check of R233 first. -/
def controlResult (s : State) (w : Word) : ResultCode :=
  let op := w.toNat % 256
  let h := w.toNat / 256 % 256
  if w.toNat / 65536 ≠ 0 ∨ 8 < op then .illegalCommand
  else if 2 ≤ op ∧ op ≤ 6 ∧ 8 ≤ h then .invalidChannel
  else if 3 ≤ op ∧ op ≤ 6 ∧ ∃ c : Fin 8, c.val = h ∧ (s.slot c).state = .free then .invalidChannel
  else if op = 1 ∧ ∀ c : Fin 8, (s.slot c).state ≠ .free then .noFreeChannels
  else .ok

/-! ## What a step does -/

/-- A byte of the access lies in the register window. -/
def TouchesWindow (cfg : Config) (a : BusAccess) : Prop :=
  ∃ k < a.width.bytes, cfg.mixerBase.toNat ≤ (a.addr.toNat + k) % 2 ^ 32 ∧
    (a.addr.toNat + k) % 2 ^ 32 < cfg.mixerBase.toNat + 0x200

/-- The CTRL engine may be the one that steps, and it holds a word that decodes to `i`. -/
def RunsControl (s : State) (i : Instr) : Prop :=
  (s.agenda = [] ∨ s.agenda.head? = some .ctrlEngine) ∧
    ∃ w, s.ctrlLatch = some w ∧ decode (.ctrl w) = .ok i

/-- The OUT engine may be the one that steps, and it holds a word that decodes to `i`. -/
def RunsOutput (s : State) (i : Instr) : Prop :=
  (s.agenda = [] ∨ s.agenda.head? = some .outEngine) ∧
    ∃ w, s.outPhase = .pending w ∧ decode (.out w) = .ok i

/-- The next event is a host's register access, and it decodes to `i`. -/
def AccessesRegister (s : State) (i : Instr) : Prop :=
  ∃ off a, s.agenda.head? = some (.host ⟨s.cfg.mixerBase + off.setWidth 32, .word, a⟩) ∧
    decode (.mmio off .word a) = .ok i

/-- The next event is the reset input. -/
def Resets (s : State) : Prop := s.agenda.head? = some .reset

/-- `n` steps, one after the other. -/
def steps : Nat → State → Result
  | 0, s => .next s
  | n + 1, s =>
    match step s with
    | .next t => steps n t
    | r => r

/-- The next event is a host's write to a command or operand register of the CTRL port (R121, R123). -/
def WritesCtrlPort (s : State) : Prop :=
  ∃ w, AccessesRegister s (.wrCtrlCmd w) ∨ AccessesRegister s (.wrCtrlArg0 w) ∨
    AccessesRegister s (.wrCtrlArg1 w) ∨ AccessesRegister s (.wrCtrlArg2 w)

/-- The next event is a host's write to a command or operand register of the OUT port (R121, R123). -/
def WritesOutPort (s : State) : Prop :=
  ∃ w, AccessesRegister s (.wrOutCmd w) ∨ AccessesRegister s (.wrOutArg0 w) ∨ AccessesRegister s (.wrOutArg1 w)

/-- An OUTPUT is accepted and not complete (R78). -/
def OutputInProgress (s : State) : Prop :=
  (∃ w, s.outPhase = .pending w ∧ decode (.out w) = .ok .output) ∨
    ∃ id h b n l r, s.outPhase = .awaitPort id (.output h b n l r)

/-- An address outside a region that may wrap at the top of the address space (R69). -/
def OutsideRegion (r : Region) (a : Word) : Prop := r.size ≤ (a.toNat + (2 ^ 32 - r.base.toNat)) % 2 ^ 32

/-- Two slots differ at most in what the model remembers of host writes. -/
def SameSlot (a b : Slot) : Prop := { a with hostWrites := [] } = { b with hostWrites := [] }

/-- The change of `state` of slot `c` that a command may make, with its condition (R38). -/
def MayBecome (s : State) (c : Fin 8) (i : Instr) (new : SlotState) : Prop :=
  let old := s.slot c
  match i with
  | .alloc _ => old.state = .free ∧ new = .idle ∧ ∀ d < c, (s.slot d).state ≠ .free
  | .free h => h.toNat = c.val ∧ new = .free
  | .submit h => h.toNat = c.val ∧ old.state ≠ .free ∧ new = .playing
  | .fadeOut h => h.toNat = c.val ∧ old.state ≠ .free ∧
      ((s.ctrlArg0 = 0 ∧ new = .idle) ∨ (s.ctrlArg0 ≠ 0 ∧ new = .fadingOut))
  | .mix _ => (old.state = .playing ∨ old.state = .fadingOut) ∧ new = .idle ∧
      (old.bufLen = 0 ∨
        (old.looping = false ∧ old.bufLen.toNat < old.position.toNat + s.sampleCount.toNat) ∨
        (old.state = .fadingOut ∧ (old.fadeLevel.toNat : Int) + old.fadeStep.toInt ≤ 0))
  | _ => False

/-- The command on this handle is rejected: INVALID_CHANNEL, and nothing but CTRL_STATUS changes (R150). -/
def Rejected (i : Instr) (s : State) : Prop :=
  exec i s = .next { s with ctrlLatch := none, ctrlCode := .invalidChannel }

/-! ## The mixing pass -/

/-- `sat16` (R12). -/
def saturate (x : Int) : Int := max (-32768) (min x 32767)

/-- `quot` for a positive divisor (R12). -/
def quotient (r : Rounding) (a : Int) (b : Nat) : Int :=
  match r with
  | .towardZero => a.sign * (a.natAbs / b : Nat)
  | .floor => a / b

/-- The gain formula (R185). -/
def scaled (r : Rounding) (src vol g mv : Int) : Int :=
  saturate (quotient r (quotient r (quotient r (src * vol) 32768 * g) 256 * mv) 32768)

/-- The sample two bytes make, the first at the lower address (R62). -/
def sampleOf (e : Endian) (first second : Byte) : Int :=
  let v : Nat :=
    match e with
    | .little => first.toNat + 256 * second.toNat
    | .big => 256 * first.toNat + second.toNat
  if v < 32768 then v else (v : Int) - 65536

/-- The sample at an address (R62), the address modulo 2^32. -/
def sampleAt (cfg : Config) (m : Memory) (a : Nat) : Int :=
  sampleOf cfg.sampleEndian (m.read (a % 2 ^ 32)) (m.read ((a + 1) % 2 ^ 32))

/-- MIX processes the slot (R181). -/
abbrev Processed (sl : Slot) : Prop := sl.state = .playing ∨ sl.state = .fadingOut

/-- The fade level after a pass (R188). -/
def levelAfter (sl : Slot) : Nat := min ((sl.fadeLevel.toNat : Int) + sl.fadeStep.toInt).toNat (2 ^ 24)

/-- The cursor after a pass of `n` frames (R183). -/
def cursorAfter (gap : Bool) (n : Nat) (sl : Slot) : Nat :=
  let p := sl.position.toNat
  let len := sl.bufLen.toNat
  if sl.looping = false then min (p + n) len
  else if gap then (p + n) % (len + 1)
  else if n = 0 then p
  else (p + n - 1) % len + 1

/-- A slot after a pass of `n` frames (R181, R182, R183, R188). -/
def slotAfterPass (gap : Bool) (n : Nat) (sl : Slot) : Slot :=
  if ¬ Processed sl then sl
  else if sl.bufLen = 0 then { sl with state := .idle }
  else
    { sl with
      position := BitVec.ofNat 32 (cursorAfter gap n sl)
      fadeLevel := BitVec.ofNat 32 (levelAfter sl)
      state :=
        if (sl.looping = false ∧ sl.bufLen.toNat < sl.position.toNat + n) ∨
            (sl.state = .fadingOut ∧ levelAfter sl = 0)
        then .idle else sl.state
      fadeStep := if 0 < sl.fadeStep.toInt ∧ levelAfter sl = 2 ^ 24 then 0 else sl.fadeStep }

/-- The frame of its buffer a slot plays into output frame `i` of a pass, if it plays any (R183). -/
def framePlayed (gap : Bool) (sl : Slot) (i : Nat) : Option Nat :=
  let p := sl.position.toNat
  let len := sl.bufLen.toNat
  if ¬ Processed sl ∨ len = 0 then none
  else if sl.looping = false then
    if p + i < len then some (p + i) else none
  else if gap then
    if (p + i) % (len + 1) = len then none else some ((p + i) % (len + 1))
  else some ((p + i) % len)

/-- The two lanes of a frame (R63, R64). -/
inductive Lane where
  | left | right
deriving DecidableEq, Repr

/-- The offset of a lane's sample in its frame (R63). -/
def Lane.offset : Lane → Nat
  | .left => 0
  | .right => 2

/-- The channel volume of a lane (R185). -/
def Lane.volume (lane : Lane) (sl : Slot) : Int :=
  match lane with
  | .left => sl.volL.toInt
  | .right => sl.volR.toInt

/-- The address of a sample of frame `q` of a slot's buffer (R63, R184). -/
def sourceAddr (sl : Slot) (q : Nat) (lane : Lane) : Nat := sl.bufBase.toNat + 4 * q + lane.offset

/-- The output base of a MIX (R93): CTRL_ARG0 with bit 0 taken as 0. -/
def outputBase (s : State) : Nat := s.ctrlArg0.toNat / 2 * 2

/-- An address outside the `4 * SAMPLE_COUNT` bytes at the output base (R189). -/
def OutsideOutput (s : State) (a : Nat) : Prop :=
  4 * s.sampleCount.toNat ≤ (a + (2 ^ 32 - outputBase s)) % 2 ^ 32

/-- One slot's share of an output sample added to the sum so far (R185, R187), where the sample of frame `q`
it plays is `sample c q`. -/
def addSlot (s : State) (sample : Fin 8 → Nat → Int) (i : Nat) (lane : Lane) (acc : Int) (c : Fin 8) : Int :=
  let sl := s.slot c
  match framePlayed s.cfg.loopWrapGap sl i with
  | none => acc
  | some q => saturate (acc + scaled s.cfg.divRounding (sample c q) (lane.volume sl)
      (sl.fadeLevel.toNat / 65536 : Nat) s.masterVol.toNat)

/-- An output sample of a MIX that runs in this state, the slots in ascending order (R187). -/
def mixedFrom (s : State) (sample : Fin 8 → Nat → Int) (i : Nat) (lane : Lane) : Int :=
  ([0, 1, 2, 3, 4, 5, 6, 7] : List (Fin 8)).foldl (addSlot s sample i lane) 0

/-- An output sample of a MIX that finds every sample in memory. -/
def mixedSample (s : State) (i : Nat) (lane : Lane) : Int :=
  mixedFrom s (fun c q => sampleAt s.cfg s.mem (sourceAddr (s.slot c) q lane)) i lane

/-- A host has written, since SUBMIT, a byte of the sample that slot `c` plays into this output sample
(R77). -/
def openSample (s : State) (c : Fin 8) (i : Nat) (lane : Lane) : Bool :=
  match framePlayed s.cfg.loopWrapGap (s.slot c) i with
  | none => false
  | some q =>
    let a := sourceAddr (s.slot c) q lane
    (s.slot c).hostWrites.any fun r => r.contains (a % 2 ^ 32) || r.contains ((a + 1) % 2 ^ 32)

/-- How many open samples slot `c` plays before output frame `i`. -/
def openBefore (s : State) (c : Fin 8) (i : Nat) : Nat :=
  ((List.range i).map fun k => (openSample s c k .left).toNat + (openSample s c k .right).toNat).sum

/-- How many open samples the slots of the list play in a whole pass. -/
def openInPass (s : State) (cs : List (Fin 8)) : Nat := (cs.map fun c => openBefore s c s.sampleCount.toNat).sum

/-- The draw an open sample of a pass is: the model draws slot by slot, frame by frame, left before right
(log 30). -/
def drawNumber (s : State) (c : Fin 8) (i : Nat) (lane : Lane) : Nat :=
  s.draws + openInPass s (([0, 1, 2, 3, 4, 5, 6, 7] : List (Fin 8)).filter (· < c)) + openBefore s c i +
    match lane with
    | .left => 0
    | .right => (openSample s c i .left).toNat

/-- An output sample of a MIX, where each open sample is a free draw of its own (R77, R184). -/
def mixedWithDraws (s : State) (i : Nat) (lane : Lane) : Int :=
  mixedFrom s (fun c q =>
    if openSample s c i lane then ((Config.freeWord (drawNumber s c i lane)).setWidth 16).toInt
    else sampleAt s.cfg s.mem (sourceAddr (s.slot c) q lane)) i lane

/-- No host has written, since SUBMIT, a byte of a sample that this output sample is made of (R77). -/
def SourceStable (s : State) (i : Nat) (lane : Lane) : Prop :=
  ∀ (c : Fin 8) (q : Nat), framePlayed s.cfg.loopWrapGap (s.slot c) i = some q →
    ∀ r ∈ (s.slot c).hostWrites, ∀ k < 2,
      r.contains ((sourceAddr (s.slot c) q lane + k) % 2 ^ 32) = false

/-- The pending command is a MIX, and the address lies in its output region (R68). -/
def InPendingMix (s : State) (a : Nat) : Prop :=
  (∃ w ch, s.ctrlLatch = some w ∧ decode (.ctrl w) = .ok (.mix ch)) ∧ ¬ OutsideOutput s a

/-- A host's read sees byte `b` at the address, and `d'` is the count of draws after it, `d` before: in the
output region of a pending MIX the byte is the next draw (R68, log 10), elsewhere the one in memory. -/
def SeesByte (s : State) (a d : Nat) (b : Byte) (d' : Nat) : Prop :=
  (InPendingMix s a → b = (Config.freeWord d).setWidth 8 ∧ d' = d + 1) ∧
    (¬ InPendingMix s a → b = s.mem.read a ∧ d' = d)

/-- Two regions share an address. -/
def Meets (r q : Region) : Prop := ∃ x : Word, ¬ OutsideRegion r x ∧ ¬ OutsideRegion q x

/-- `k` mixing passes, one after the other. -/
def passes (ch : BitVec 8) : Nat → State → Result
  | 0, s => .next s
  | k + 1, s =>
    match exec (.mix ch) s with
    | .next t => passes ch k t
    | r => r

end Sys2Proof.Statements

open Sys2Proof Sys2Proof.Machine Sys2Proof.Statements

/-! ## Reset -/

/-- The state after reset has the invariant, under any parameters in the domains of R8. -/
def Obligations.ResetStateMeetsTheInvariant : Prop :=
  State.reset.Inv ∧ ∀ cfg : Config, cfg.wf = true → (State.atReset cfg).Inv

/-- R261, at any time: every element takes its reset value, and memory is not changed. -/
def Obligations.ResetSetsEveryElement : Prop :=
  State.reset.sampleCount = 1024 ∧
  ∀ (s : State) (rest : List Event), s.agenda = .reset :: rest →
    ∃ t m, step s = .next t ∧
      t.ctrlArg0 = 0 ∧ t.ctrlArg1 = 0 ∧ t.ctrlArg2 = 0 ∧ t.outArg0 = 0 ∧ t.outArg1 = 0 ∧
      t.ctrlLatch = none ∧
      exec .rdCtrlStatus t = .next { t with readData := 0 } ∧
      t.ctrlResult = 0 ∧ t.masterVol = 0x8000 ∧
      IsRoundUp64 s.cfg.resetSampleRequest.toNat m ∧
      t.sampleCount.toNat = min m s.cfg.maxSampleCount.toNat ∧
      exec .rdConfig t = .next { t with readData := 8 } ∧
      t.lockHeld = false ∧ t.outPhase = .idle ∧
      exec .rdOutStatus t = .next { t with readData := 0 } ∧
      t.outErrcode = 0 ∧
      exec .rdHwState t = .next { t with readData := 0 } ∧
      exec .rdHwHandle t = .next { t with readData := 0 } ∧
      exec .rdHwFrames t = .next { t with readData := 0 } ∧
      (∀ c : Fin 8, t.slot c = freeSlotValue) ∧
      t.mem = s.mem

/-- R262: what reset does to work outstanding: commands are dropped without their effects, a held channel
is released, and no answer of the Port to a request made before does anything, right after reset or any
number of steps later. Requests have numbers, and reset keeps the count of them, so that no later request
has an abandoned number: that is the model's form of it, log 11. -/
def Obligations.ResetDropsOutstandingWork : Prop :=
  ∀ (s : State) (rest : List Event), s.agenda = .reset :: rest →
    ∃ t, step s = .next t ∧
      t.ctrlLatch = none ∧ t.outPhase = .idle ∧ t.hw = none ∧ t.mem = s.mem ∧ t.reqCount = s.reqCount ∧
      (∀ r, s.hw = some r → t.portLog = s.portLog ++ [.release r.handle]) ∧
      (s.hw = none → t.portLog = s.portLog) ∧
      (∀ (u : State) (id : Nat) (ans : PortAnswer) (more : List Event),
        u = { t with agenda := .portAnswer id ans :: more } → step u = .next { t with agenda := more }) ∧
      ∀ (n : Nat) (u : State) (id : Nat) (req : PortReq) (ans : PortAnswer) (more : List Event),
        s.outPhase = .awaitPort id req → id < s.reqCount → steps n t = .next u →
        u.agenda = .portAnswer id ans :: more → step u = .next { u with agenda := more }

/-! ## Steps -/

/-- A step runs the decoded instruction: a host's register access, and each engine's word. -/
def Obligations.StepRunsTheDecodedInstruction : Prop :=
  ∀ (s : State) (i : Instr) (rest : List Event),
    (∀ (off : BitVec 9) (a : Access),
      s.agenda = .host ⟨s.cfg.mixerBase + off.setWidth 32, .word, a⟩ :: rest →
      decode (.mmio off .word a) = .ok i → step s = exec i { s with agenda := rest }) ∧
    (∀ w, s.agenda = .ctrlEngine :: rest → s.ctrlLatch = some w →
      decode (.ctrl w) = .ok i → step s = exec i { s with agenda := rest }) ∧
    (∀ w, s.agenda = .outEngine :: rest → s.outPhase = .pending w →
      decode (.out w) = .ok i → step s = exec i { s with agenda := rest })

/-- With no event left an enabled engine steps, either one where both are enabled (R276, R236; the
model's rule for an empty agenda, log 2), and with neither enabled nothing changes. -/
def Obligations.EmptyAgendaRunsAnEnabledEngine : Prop :=
  ∀ s : State, s.agenda = [] →
    (∀ w i, s.ctrlLatch = some w → (∀ v, s.outPhase ≠ .pending v) → decode (.ctrl w) = .ok i →
      step s = exec i s) ∧
    (∀ v j, s.ctrlLatch = none → s.outPhase = .pending v → decode (.out v) = .ok j → step s = exec j s) ∧
    (∀ w v i j, s.ctrlLatch = some w → s.outPhase = .pending v → decode (.ctrl w) = .ok i →
      decode (.out v) = .ok j →
      step s = exec i { s with draws := s.draws + 1 } ∨ step s = exec j { s with draws := s.draws + 1 }) ∧
    (s.ctrlLatch = none → (∀ v, s.outPhase ≠ .pending v) → step s = .next s)

/-- An instruction placed by its number is what the decoder reads from that number, and is what the very
next step runs (the model's placing, log 17). -/
def Obligations.PlacedInstructionRuns : Prop :=
  ∀ (s : State) (i : Instr), i.wf = true →
    decodeTableWord (tableOfRaw (encode i)).1 (tableOfRaw (encode i)).2 = some i ∧
    step (s.withFetchWord (tableOfRaw (encode i)).1 (tableOfRaw (encode i)).2) =
      exec i (match encode i with
        | .ctrl w => { s with ctrlLatch := some w }
        | .out w => { s with outPhase := .pending w }
        | .mmio _ _ _ => s)

/-- With no event left, both engines take up the words they hold within two steps: the latch is empty and
the OUT port no longer Pending. A RESERVE or OUTPUT may then wait for the Port for ever (R276), so this says
of no such command that it ends. R276 gives only that the engines' own steps come at last, and no bound: the
bound of two steps is the model's choice for an empty agenda, and unsafe as a claim about time, log 2. -/
def Obligations.EnginesDrainInTwoSteps : Prop :=
  ∀ s : State, s.agenda = [] →
    ∃ t u, step s = .next t ∧ step t = .next u ∧ u.ctrlLatch = none ∧ ∀ w, u.outPhase ≠ .pending w

/-! ## Encoding -/

/-- No bit of an encoding is dropped: what an instruction is encoded by decodes to it. -/
def Obligations.DecodeEncodeAgree : Prop :=
  ∀ i : Instr, i.wf = true → decode (encode i) = .ok i

/-- Every transfer that decodes is the encoding of the well-formed instruction it decodes to. -/
def Obligations.EncodeDecodeAgree : Prop :=
  ∀ (r : Raw) (i : Instr), decode r = .ok i → i.wf = true ∧ encode i = r

/-- R100: every word decodes to one of the commands of the opcode maps or to illegal, by its fields
alone. -/
def Obligations.DecodingFollowsTheOpcodeMaps : Prop :=
  ∀ w : Word, decode (.ctrl w) = .ok (controlCommand w) ∧ decode (.out w) = .ok (outputCommand w)

/-- R103: the word of a channel command is `(h << 8) | op`. -/
def Obligations.CommandWordArithmetic : Prop :=
  (∀ h : BitVec 8,
    encode (.free h) = .ctrl ((h.setWidth 32 <<< 8) ||| 0x02) ∧
    encode (.submit h) = .ctrl ((h.setWidth 32 <<< 8) ||| 0x03) ∧
    encode (.setVolume h) = .ctrl ((h.setWidth 32 <<< 8) ||| 0x04) ∧
    encode (.fadeOut h) = .ctrl ((h.setWidth 32 <<< 8) ||| 0x05) ∧
    encode (.fadeIn h) = .ctrl ((h.setWidth 32 <<< 8) ||| 0x06)) ∧
  encode (.free 3) = .ctrl 0x00000302 ∧
  encode (.submit 0) = .ctrl 0x00000003 ∧
  encode (.fadeOut 7) = .ctrl 0x00000705

/-- Words and offsets written out from the tables of R23, R39, R92 and R95 decode to their rows. -/
def Obligations.WordsOfTheSpecDecode : Prop :=
  decode (.ctrl 0x00000001) = .ok (.alloc 0) ∧
  decode (.ctrl 0x00000302) = .ok (.free 3) ∧
  decode (.ctrl 0x00000508) = .ok (.mix 5) ∧
  decode (.ctrl 0x00010903) = .ok (.illegalCtrl 0x00010903) ∧
  decode (.out 0x00000003) = .ok .output ∧
  decode (.out 0x00000101) = .ok (.illegalOut 0x00000101) ∧
  decode (.mmio 0x018 .word (.write 0x4000)) = .ok (.wrMasterVol 0x4000) ∧
  decode (.mmio 0x054 .word .read) = .ok .rdOutErrcode ∧
  decode (.mmio 0x174 .word .read) = .ok (.rdChPosition 3) ∧
  decode (.mmio 0x028 .word .read) = .ok (.reserved 0x028 .read)

/-! ## Faults -/

/-- R66: of the accesses that touch the window, an aligned 32-bit one is served; any other is a fault,
and no state follows it. That an access with only some bytes in the window touches it, and that a wrong
width is named before a wrong alignment, are the model's: log 15. -/
def Obligations.OnlyAlignedWordAccessesAreDefined : Prop :=
  ∀ (s : State) (a : BusAccess) (rest : List Event), s.cfg.wf = true → s.agenda = .host a :: rest →
    TouchesWindow s.cfg a →
    (a.width ≠ .word → step s = .fault .wrongWidth) ∧
    (a.width = .word → a.addr.toNat % 4 ≠ 0 → step s = .fault .misaligned) ∧
    (a.width = .word → a.addr.toNat % 4 = 0 → ∃ t, step s = .next t)

/-- R247, R230: every instruction ends in a next state. That a step stops ONLY on a window access of the
wrong width or alignment is the model's choice: it declines the faults that item 2 of R247 allows for a
broken host obligation (log 24, log 9). That no step is refused is the model's too, which has no use for
that outcome of the host's interface. -/
def Obligations.NoCommandRaisesAFault : Prop :=
  (∀ (i : Instr) (s : State), ∃ t, exec i s = .next t) ∧
  (∀ (s : State) (f : Fault), s.cfg.wf = true → step s = .fault f →
    ∃ a rest, s.agenda = .host a :: rest ∧ TouchesWindow s.cfg a ∧
      (a.width ≠ .word ∨ a.addr.toNat % 4 ≠ 0)) ∧
  (∀ (s : State) (r : Refusal), step s ≠ .refused r)

/-! ## Registers -/

/-- R121: a command word is accepted by an idle port, and dropped by a busy one with OVR set. -/
def Obligations.CommandWritesAreAcceptedOrDropped : Prop :=
  (∀ (s : State) (w : Word), s.ctrlLatch = none →
    exec (.wrCtrlCmd w) s = .next { s with ctrlLatch := some w }) ∧
  (∀ (s : State) (w v : Word), s.ctrlLatch = some v →
    exec (.wrCtrlCmd w) s = .next { s with ctrlOvr := true }) ∧
  (∀ (s : State) (w : Word), s.outPhase = .idle →
    exec (.wrOutCmd w) s = .next { s with outPhase := .pending w, outTouched := [] }) ∧
  (∀ (s : State) (w : Word), s.outPhase ≠ .idle →
    exec (.wrOutCmd w) s = .next { s with outOvr := true }) ∧
  (∀ s t : State, s.ctrlLatch = none → s.ctrlOvr = false → s.ctrlCode = .ok →
    exec (.wrCtrlCmd 0x0302) s = .next t → exec .rdCtrlStatus t = .next { t with readData := 0x100 })

/-- R123, R124: an operand register of an idle port takes all 32 bits; a busy port drops the write and sets
its own OVR; a read returns the stored value at any time and changes nothing. -/
def Obligations.OperandRegisters : Prop :=
  (∀ (s : State) (v : Word), s.ctrlLatch = none →
    exec (.wrCtrlArg0 v) s = .next { s with ctrlArg0 := v } ∧
    exec (.wrCtrlArg1 v) s = .next { s with ctrlArg1 := v } ∧
    exec (.wrCtrlArg2 v) s = .next { s with ctrlArg2 := v }) ∧
  (∀ (s : State) (v w : Word), s.ctrlLatch = some w →
    exec (.wrCtrlArg0 v) s = .next { s with ctrlOvr := true } ∧
    exec (.wrCtrlArg1 v) s = .next { s with ctrlOvr := true } ∧
    exec (.wrCtrlArg2 v) s = .next { s with ctrlOvr := true }) ∧
  (∀ (s : State) (v : Word), s.outPhase = .idle →
    exec (.wrOutArg0 v) s = .next { s with outArg0 := v } ∧
    exec (.wrOutArg1 v) s = .next { s with outArg1 := v }) ∧
  (∀ (s : State) (v : Word), s.outPhase ≠ .idle →
    exec (.wrOutArg0 v) s = .next { s with outOvr := true } ∧
    exec (.wrOutArg1 v) s = .next { s with outOvr := true }) ∧
  (∀ s : State,
    exec .rdCtrlArg0 s = .next { s with readData := s.ctrlArg0 } ∧
    exec .rdCtrlArg1 s = .next { s with readData := s.ctrlArg1 } ∧
    exec .rdCtrlArg2 s = .next { s with readData := s.ctrlArg2 } ∧
    exec .rdOutArg0 s = .next { s with readData := s.outArg0 } ∧
    exec .rdOutArg1 s = .next { s with readData := s.outArg1 })

/-- R125 (and the read of R126): a write stores the signed word clamped to [0, 0x8000], at any time; a read returns what is
stored. -/
def Obligations.MasterVolumeWriteAndRead : Prop :=
  (∀ (s : State) (w : Word), exec (.wrMasterVol w) s = .next { s with masterVol := clampedVolume w }) ∧
  (∀ w : Word, (clampedVolume w).toNat ≤ 0x8000) ∧
  (∀ s : State, exec .rdMasterVol s = .next { s with readData := s.masterVol })

/-- R129, R130: a status read, and a status write: bit 9 of the word clears OVR, nothing else is writable,
and no write is dropped. -/
def Obligations.StatusRegisters : Prop :=
  (∀ s : State,
    exec .rdCtrlStatus s =
      .next { s with readData := statusValue s.ctrlOvr (s.ctrlLatch != none) s.ctrlCode } ∧
    exec .rdOutStatus s =
      .next { s with readData := statusValue s.outOvr (s.outPhase != .idle) s.outCode }) ∧
  (∀ (s : State) (w : Word),
    (w.toNat / 512 % 2 = 1 →
      exec (.wrCtrlStatus w) s = .next { s with ctrlOvr := false } ∧
      exec (.wrOutStatus w) s = .next { s with outOvr := false }) ∧
    (w.toNat / 512 % 2 = 0 →
      exec (.wrCtrlStatus w) s = .next s ∧ exec (.wrOutStatus w) s = .next s))

/-- R131, R132: a lock read returns the old bit and sets it; a write stores bit 0. -/
def Obligations.LockReadAndWrite : Prop :=
  (∀ s : State, exec .rdCtrlLock s =
    .next { s with lockHeld := true, readData := if s.lockHeld then 1 else 0 }) ∧
  (∀ (s : State) (w : Word), exec (.wrCtrlLock w) s =
    .next { s with lockHeld := decide (w.toNat % 2 = 1) })

/-- R133: reads of the read-only registers and of the two command registers; writes to the read-only ones
are ignored. -/
def Obligations.ReadOnlyRegisters : Prop :=
  (∀ s : State,
    exec .rdCtrlResult s = .next { s with readData := s.ctrlResult } ∧
    exec .rdSampleCount s = .next { s with readData := s.sampleCount } ∧
    exec .rdConfig s = .next { s with readData := 0x00000008 } ∧
    exec .rdOutErrcode s = .next { s with readData := s.outErrcode } ∧
    exec .rdCtrlCmd s = .next { s with readData := 0 } ∧
    exec .rdOutCmd s = .next { s with readData := 0 }) ∧
  (∀ (s : State) (r : Reservation), s.hw = some r →
    exec .rdHwState s = .next { s with readData := 1 } ∧
    exec .rdHwHandle s = .next { s with readData := r.handle } ∧
    exec .rdHwFrames s = .next { s with readData := r.frames }) ∧
  (∀ s : State, s.hw = none →
    exec .rdHwState s = .next { s with readData := 0 } ∧
    exec .rdHwHandle s = .next { s with readData := 0 } ∧
    exec .rdHwFrames s = .next { s with readData := 0 }) ∧
  (∀ (s : State) (w : Word),
    exec (.wrCtrlResult w) s = .next s ∧ exec (.wrSampleCount w) s = .next s ∧
    exec (.wrConfig w) s = .next s ∧ exec (.wrOutErrcode w) s = .next s ∧
    exec (.wrHwState w) s = .next s ∧ exec (.wrHwHandle w) s = .next s ∧
    exec (.wrHwFrames w) s = .next s)

/-- R127, R39: the channel bank is read while CTRL is idle, is any value while it is busy, and cannot be
written. The form of the value while busy, a fresh free value for each read, is the model's: log 8, log 7. -/
def Obligations.ChannelBankAccess : Prop :=
  (∀ (s : State) (c : Fin 8), s.ctrlLatch = none →
    exec (.rdChState c) s = .next { s with
      readData := BitVec.ofNat 32 (stateNumber (s.slot c).state + 256 * (s.slot c).looping.toNat) } ∧
    exec (.rdChVolL c) s = .next { s with readData := (s.slot c).volL } ∧
    exec (.rdChVolR c) s = .next { s with readData := (s.slot c).volR } ∧
    exec (.rdChBufBase c) s = .next { s with readData := (s.slot c).bufBase } ∧
    exec (.rdChBufLen c) s = .next { s with readData := (s.slot c).bufLen } ∧
    exec (.rdChPosition c) s = .next { s with readData := (s.slot c).position } ∧
    exec (.rdChFadeLevel c) s = .next { s with readData := (s.slot c).fadeLevel } ∧
    exec (.rdChFadeStep c) s = .next { s with readData := (s.slot c).fadeStep }) ∧
  (∀ (s : State) (c : Fin 8) (w : Word), s.ctrlLatch = some w →
    ∀ i ∈ [Instr.rdChState c, .rdChVolL c, .rdChVolR c, .rdChBufBase c, .rdChBufLen c, .rdChPosition c,
        .rdChFadeLevel c, .rdChFadeStep c],
      exec i s = .next { s with readData := Config.freeWord s.draws, draws := s.draws + 1 }) ∧
  (∀ (s : State) (c : Fin 8) (k : BitVec 5) (w : Word), exec (.wrChBank c k w) s = .next s)

/-- R43: an aligned offset of the window that no rule names reads 0 and ignores writes. -/
def Obligations.ReservedOffsets : Prop :=
  ∀ (off : BitVec 9) (a : Access), off.toNat % 4 = 0 → off.toNat < 0x100 →
    off.toNat ∉ [0x000, 0x004, 0x008, 0x00C, 0x010, 0x014, 0x018, 0x01C, 0x020, 0x024, 0x040, 0x044, 0x048,
      0x050, 0x054, 0x058, 0x05C, 0x060] →
    decode (.mmio off .word a) = .ok (.reserved off a) ∧
    ∀ (s : State) (w : Word),
      exec (.reserved off .read) s = .next { s with readData := 0 } ∧
      exec (.reserved off (.write w)) s = .next s

/-! ## Control commands -/

/-- R98, R128, R215: OP 0 is NOP on the CTRL port, whatever CH is, and ONOP on the OUT port; each completes
with OK and changes nothing but its port's STATUS. -/
def Obligations.NoOpsOnlyComplete : Prop :=
  ∀ (s : State) (ch : BitVec 8),
    decode (.ctrl (BitVec.ofNat 32 (256 * ch.toNat))) = .ok (.nop ch) ∧
    decode (.out 0) = .ok .onop ∧
    exec (.nop ch) s = .next { s with ctrlLatch := none, ctrlCode := .ok } ∧
    exec .onop s = .next { s with outPhase := .idle, outCode := .ok }

/-- R97: a word with a reserved opcode or non-zero RSV bits is accepted like any other, completes with ILLEGAL_COMMAND
and changes no other state. -/
def Obligations.IllegalWordsOnlyComplete : Prop :=
  (∀ (s : State) (w : Word), (w.toNat / 65536 ≠ 0 ∨ 8 < w.toNat % 256) →
    decode (.ctrl w) = .ok (.illegalCtrl w) ∧
    (s.ctrlLatch = none → exec (.wrCtrlCmd w) s = .next { s with ctrlLatch := some w }) ∧
    exec (.illegalCtrl w) s = .next { s with ctrlLatch := none, ctrlCode := .illegalCommand }) ∧
  (∀ (s : State) (w : Word), (w.toNat / 256 ≠ 0 ∨ 3 < w.toNat % 256) →
    decode (.out w) = .ok (.illegalOut w) ∧
    (s.outPhase = .idle → exec (.wrOutCmd w) s = .next { s with outPhase := .pending w, outTouched := [] }) ∧
    exec (.illegalOut w) s = .next { s with outPhase := .idle, outCode := .illegalCommand })

/-- R150: a handle out of range, and a Free slot for all but FREE, give INVALID_CHANNEL and change
nothing but CTRL_STATUS; FREE accepts a Free slot. -/
def Obligations.HandleChecks : Prop :=
  (∀ (s : State) (h : BitVec 8), 8 ≤ h.toNat →
    ∀ i ∈ [Instr.free h, .submit h, .setVolume h, .fadeOut h, .fadeIn h], Rejected i s) ∧
  (∀ (s : State) (h : BitVec 8) (c : Fin 8), h.toNat = c.val → (s.slot c).state = .free →
    (∀ i ∈ [Instr.submit h, .setVolume h, .fadeOut h, .fadeIn h], Rejected i s) ∧
    ∃ t, exec (.free h) s = .next t ∧ t.ctrlCode = .ok)

/-- R151: ALLOC takes the least Free slot, or fails with NO_FREE_CHANNELS; CH is ignored. -/
def Obligations.AllocTakesTheLeastFreeSlot : Prop :=
  (∀ (s : State) (ch : BitVec 8) (c : Fin 8), (s.slot c).state = .free →
    (∀ d < c, (s.slot d).state ≠ .free) →
    exec (.alloc ch) s = .next { s with
      slots := s.slots.set c
        { state := .idle
          looping := decide (s.ctrlArg2.toNat % 2 = 1)
          volL := storedVolume s.cfg s.ctrlArg0
          volR := storedVolume s.cfg s.ctrlArg1
          bufBase := 0
          bufLen := 0
          position := 0
          fadeLevel := 0x01000000
          fadeStep := 0
          hostWrites := [] }
      ctrlResult := BitVec.ofNat 32 c.val
      ctrlLatch := none
      ctrlCode := .ok }) ∧
  (∀ (s : State) (ch : BitVec 8), (∀ c : Fin 8, (s.slot c).state ≠ .free) →
    exec (.alloc ch) s = .next { s with ctrlLatch := none, ctrlCode := .noFreeChannels })

/-- R152: FREE makes the slot FREE_SLOT (R158), whatever its state, and changes nothing of a slot that is
FREE_SLOT; a handle out of range is rejected. -/
def Obligations.FreeLeavesFreeSlot : Prop :=
  (∀ (s : State) (h : BitVec 8) (c : Fin 8), h.toNat = c.val →
    exec (.free h) s = .next { s with
      slots := s.slots.set c freeSlotValue, ctrlLatch := none, ctrlCode := .ok } ∧
    (s.slot c = freeSlotValue → exec (.free h) s = .next { s with ctrlLatch := none, ctrlCode := .ok })) ∧
  (∀ (s : State) (h : BitVec 8), 8 ≤ h.toNat → Rejected (.free h) s)

/-- R153: SUBMIT attaches the buffer and starts playback from its first frame at full level. -/
def Obligations.SubmitStartsPlayback : Prop :=
  (∀ (s : State) (h : BitVec 8) (c : Fin 8), h.toNat = c.val → (s.slot c).state ≠ .free →
    exec (.submit h) s = .next { s with
      slots := s.slots.set c { s.slot c with
        bufBase := BitVec.ofNat 32 (s.ctrlArg0.toNat / 2 * 2)
        bufLen := s.ctrlArg1
        position := 0
        fadeLevel := 0x01000000
        fadeStep := 0
        state := .playing
        hostWrites := [] }
      ctrlLatch := none
      ctrlCode := .ok }) ∧
  (∀ (s : State) (h : BitVec 8), 8 ≤ h.toNat → Rejected (.submit h) s) ∧
  (∀ (s : State) (h : BitVec 8) (c : Fin 8), h.toNat = c.val → (s.slot c).state = .free → Rejected (.submit h) s)

/-- R154, R157: SET_VOLUME stores both volumes, clamped only under `CLAMP_CHANNEL_VOLUME`. -/
def Obligations.SetVolumeStoresBothVolumes : Prop :=
  (∀ (s : State) (h : BitVec 8) (c : Fin 8), h.toNat = c.val → (s.slot c).state ≠ .free →
    exec (.setVolume h) s = .next { s with
      slots := s.slots.set c { s.slot c with
        volL := storedVolume s.cfg s.ctrlArg0, volR := storedVolume s.cfg s.ctrlArg1 }
      ctrlLatch := none
      ctrlCode := .ok }) ∧
  (∀ (s : State) (h : BitVec 8), 8 ≤ h.toNat → Rejected (.setVolume h) s) ∧
  (∀ (s : State) (h : BitVec 8) (c : Fin 8), h.toNat = c.val → (s.slot c).state = .free → Rejected (.setVolume h) s)

/-- R155, R160: FADE_OUT cuts at once for N = 0; else it sets the step of R160 and the state FadingOut,
and keeps the level. -/
def Obligations.FadeOutSetsTheStep : Prop :=
  (∀ (s : State) (h : BitVec 8) (c : Fin 8), h.toNat = c.val → (s.slot c).state ≠ .free →
    (s.ctrlArg0 = 0 →
      exec (.fadeOut h) s = .next { s with
        slots := s.slots.set c { s.slot c with fadeLevel := 0, fadeStep := 0, state := .idle }
        ctrlLatch := none
        ctrlCode := .ok }) ∧
    (s.ctrlArg0 ≠ 0 →
      exec (.fadeOut h) s = .next { s with
        slots := s.slots.set c { s.slot c with
          fadeStep := -BitVec.ofNat 32 (fadeStepSize s.cfg.divRounding s.ctrlArg0.toNat)
          state := .fadingOut }
        ctrlLatch := none
        ctrlCode := .ok })) ∧
  (∀ (s : State) (h : BitVec 8), 8 ≤ h.toNat → Rejected (.fadeOut h) s) ∧
  (∀ (s : State) (h : BitVec 8) (c : Fin 8), h.toNat = c.val → (s.slot c).state = .free → Rejected (.fadeOut h) s)

/-- R156, R160: FADE_IN restores full level at once for N = 0; else it starts from level 0 with the step
of R160, under either rounding; the state never changes. -/
def Obligations.FadeInSetsTheStep : Prop :=
  (∀ (s : State) (h : BitVec 8) (c : Fin 8), h.toNat = c.val → (s.slot c).state ≠ .free →
    (s.ctrlArg0 = 0 →
      exec (.fadeIn h) s = .next { s with
        slots := s.slots.set c { s.slot c with fadeLevel := 0x01000000, fadeStep := 0 }
        ctrlLatch := none
        ctrlCode := .ok }) ∧
    (s.ctrlArg0 ≠ 0 →
      exec (.fadeIn h) s = .next { s with
        slots := s.slots.set c { s.slot c with
          fadeLevel := 0, fadeStep := BitVec.ofNat 32 (2 ^ 24 / s.ctrlArg0.toNat) }
        ctrlLatch := none
        ctrlCode := .ok })) ∧
  (∀ (s : State) (h : BitVec 8), 8 ≤ h.toNat → Rejected (.fadeIn h) s) ∧
  (∀ (s : State) (h : BitVec 8) (c : Fin 8), h.toNat = c.val → (s.slot c).state = .free → Rejected (.fadeIn h) s)

/-- R232: a command that ends with an error changes its port's STATUS and nothing else, but for
OUT_ERRCODE on the Port's error. -/
def Obligations.FailedCommandsHaveNoOtherEffect : Prop :=
  (∀ (i : Instr) (s t : State), i.format = .ctrl32 → exec i s = .next t → t.ctrlCode ≠ .ok →
    t = { s with ctrlLatch := none, ctrlCode := t.ctrlCode }) ∧
  (∀ (i : Instr) (s t : State), i.format = .out32 → exec i s = .next t → t.outPhase = .idle →
    t.outCode ≠ .ok → t = { s with outPhase := .idle, outCode := t.outCode }) ∧
  (∀ (s : State) (id : Nat) (req : PortReq) (e : Word) (rest : List Event),
    s.outPhase = .awaitPort id req → s.agenda = .portAnswer id (.err e) :: rest →
    step s = .next { s with
      agenda := rest, outPhase := .idle, outCode := .audioError, outErrcode := e })

/-- R233, R231: the CTRL engine's step empties the latch and writes the result of the first check that
matches. -/
def Obligations.ControlStepWritesTheFirstMatchingResult : Prop :=
  ∀ (s : State) (w : Word) (rest : List Event), s.ctrlLatch = some w → s.agenda = .ctrlEngine :: rest →
    ∃ t, step s = .next t ∧ t.ctrlLatch = none ∧
      (∀ code, controlResult s w = code → t.ctrlCode = code) ∧ t.ctrlOvr = s.ctrlOvr

/-- R162: a FADE_IN before SUBMIT leaves no trace: the SUBMIT gives the state it gives without it. -/
def Obligations.FadeInBeforeSubmitIsLost : Prop :=
  ∀ (s t : State) (h : BitVec 8) (base frames : Word), exec (.fadeIn h) s = .next t →
    exec (.submit h) { t with ctrlArg0 := base, ctrlArg1 := frames } =
      exec (.submit h) { s with ctrlArg0 := base, ctrlArg1 := frames }

/-- R38: the state of a slot changes only by the listed commands, each under its condition, and by reset;
and it is read back as its number. -/
def Obligations.SlotsChangeStateOnlyAsListed : Prop :=
  (∀ (s t : State) (c : Fin 8), step s = .next t → (t.slot c).state ≠ (s.slot c).state →
    (∃ i, RunsControl s i ∧ MayBecome s c i (t.slot c).state) ∨
      (Resets s ∧ (t.slot c).state = .free)) ∧
  (∀ (s : State) (c : Fin 8), s.ctrlLatch = none →
    ∃ v : Word, exec (.rdChState c) s = .next { s with readData := v } ∧
      v.toNat % 4 = stateNumber (s.slot c).state)

/-! ## The mixing pass -/

/-- R180: SET_SAMPLE_COUNT stores the request rounded up to a multiple of 64, at most
`MAX_SAMPLE_COUNT`, and changes nothing else but the end of the command; CH is ignored. -/
def Obligations.SetSampleCountRoundsUp : Prop :=
  ∀ (s : State) (ch : BitVec 8), ∃ m, IsRoundUp64 s.ctrlArg0.toNat m ∧
    exec (.setSampleCount ch) s = .next { s with
      sampleCount := BitVec.ofNat 32 (min m s.cfg.maxSampleCount.toNat)
      ctrlLatch := none
      ctrlCode := .ok }

/-- R185, R192, R195: the model's gain formula is the three quotients in sequence, with its vectors; the
rounding does not matter where nothing is negative. -/
def Obligations.GainFormula : Prop :=
  (∀ (r : Rounding) (src vol g mv : Int), scale r src vol g mv = scaled r src vol g mv) ∧
  scale .towardZero 100 0x6000 128 0x6000 = 27 ∧
  quot .towardZero (100 * 0x6000) 0x8000 = 75 ∧ quot .towardZero (75 * 128) 256 = 37 ∧
  quot .towardZero (37 * 0x6000) 0x8000 = 27 ∧
  (100 * 0x6000 * 128 * 0x6000) / (0x8000 * 256 * 0x8000) = 28 ∧
  scale .towardZero (-1) 0x4000 256 0x8000 = 0 ∧
  scale .floor (-1) 0x4000 256 0x8000 = -1 ∧
  (∀ src vol g mv : Int, 0 ≤ src → 0 ≤ vol → 0 ≤ g → 0 ≤ mv →
    scale .towardZero src vol g mv = scale .floor src vol g mv)

/-- R186: no intermediate of the gain formula leaves the signed 64-bit range. -/
def Obligations.IntermediatesFitIn64Bits : Prop :=
  ∀ (r : Rounding) (src vol g mv t1 t2 t3 t4 t5 t6 : Int),
    |src| ≤ 2 ^ 15 → |vol| ≤ 2 ^ 31 → 0 ≤ g → g ≤ 2 ^ 8 → 0 ≤ mv → mv ≤ 2 ^ 15 →
    t1 = src * vol → t2 = quot r t1 0x8000 → t3 = t2 * g → t4 = quot r t3 256 → t5 = t4 * mv →
    t6 = quot r t5 0x8000 →
    scale r src vol g mv = sat16 t6 ∧
    |t1| ≤ 2 ^ 46 ∧ |t2| ≤ 2 ^ 31 ∧ |t3| ≤ 2 ^ 39 ∧ |t4| ≤ 2 ^ 31 ∧ |t5| ≤ 2 ^ 46 ∧ |t6| ≤ 2 ^ 31

/-- R191: at unity a sample is unchanged, and two unity channels mix to the saturated sum. -/
def Obligations.UnityIsTheIdentity : Prop :=
  ∀ (r : Rounding) (v1 v2 : Int), -32768 ≤ v1 → v1 ≤ 32767 → -32768 ≤ v2 → v2 ≤ 32767 →
    scale r v1 0x8000 256 0x8000 = v1 ∧
    sat16 (sat16 (0 + scale r v1 0x8000 256 0x8000) + scale r v2 0x8000 256 0x8000) = saturate (v1 + v2) ∧
    (|v1| < 16384 → |v2| < 16384 →
      sat16 (sat16 (0 + scale r v1 0x8000 256 0x8000) + scale r v2 0x8000 256 0x8000) = v1 + v2)

/-- R181, R182, R183, R188: every slot after a pass, in closed form, whatever is in memory. -/
def Obligations.MixMovesEverySlot : Prop :=
  ∀ (s : State) (ch : BitVec 8), s.Inv → ∃ t, exec (.mix ch) s = .next t ∧
    ∀ c : Fin 8, t.slot c = slotAfterPass s.cfg.loopWrapGap s.sampleCount.toNat (s.slot c)

/-- R181, R61, R189: MIX completes in every state; it changes the slots, the bytes of its output region
and no other byte, and leaves every register but CTRL_STATUS as it was; CH is ignored. -/
def Obligations.MixCompletesAndItsFrame : Prop :=
  ∀ (s : State) (ch : BitVec 8), ∃ t, exec (.mix ch) s = .next t ∧
    t = { s with
      ctrlLatch := none, ctrlCode := .ok, slots := t.slots, mem := t.mem, outTouched := t.outTouched,
      draws := t.draws } ∧
    (∀ a : Word, OutsideOutput s a.toNat → t.mem.read a.toNat = s.mem.read a.toNat) ∧
    exec (.mix 0) s = .next t

/-- R184, R185, R187, R189, R77: each output sample is the saturating sum, in ascending slot order, of the
scaled samples the slots play into it, read from the memory as it was before the pass; and a sample with a
byte that a host has written since SUBMIT is any value. The form of that value, a free draw of its own for
each such sample (log 7, log 9) taken in the order of log 30, is the model's. -/
def Obligations.MixWritesTheSaturatingSum : Prop :=
  ∀ (s t : State) (ch : BitVec 8), s.Inv → s.sampleCount.toNat ≤ 2 ^ 30 → exec (.mix ch) s = .next t →
    (∀ (i : Nat) (lane : Lane), i < s.sampleCount.toNat → SourceStable s i lane →
      sampleAt s.cfg t.mem (outputBase s + 4 * i + lane.offset) = mixedSample s i lane) ∧
    (∀ (i : Nat) (lane : Lane), i < s.sampleCount.toNat →
      sampleAt s.cfg t.mem (outputBase s + 4 * i + lane.offset) = mixedWithDraws s i lane) ∧
    t.draws = s.draws + openInPass s [0, 1, 2, 3, 4, 5, 6, 7]

/-- R193: with no slot Playing or FadingOut the pass writes zeros and changes no slot. -/
def Obligations.SilentPassWritesZeros : Prop :=
  ∀ (s : State) (ch : BitVec 8), Memory.wf s.mem = true → (∀ c : Fin 8, ¬ Processed (s.slot c)) →
    ∃ t, exec (.mix ch) s = .next t ∧ t.slots = s.slots ∧
      ∀ k < 2 * s.sampleCount.toNat, sampleAt s.cfg t.mem (outputBase s + 2 * k) = 0

/-- R196, R188: with a sample count of 0 MIX writes no memory and moves no cursor; a slot with an empty
buffer still becomes Idle, any other processed slot still gets its fade update and nothing else, and a slot
that is not processed stays as it is. -/
def Obligations.ZeroSampleCountStillFades : Prop :=
  ∀ (s : State) (ch : BitVec 8), s.sampleCount = 0 →
    ∃ t, exec (.mix ch) s = .next t ∧ t.mem = s.mem ∧
      ∀ c : Fin 8, (t.slot c).position = (s.slot c).position ∧
        (¬ Processed (s.slot c) → t.slot c = s.slot c) ∧
        (Processed (s.slot c) → (s.slot c).bufLen = 0 → t.slot c = { s.slot c with state := .idle }) ∧
        (Processed (s.slot c) → (s.slot c).bufLen ≠ 0 →
          t.slot c = { s.slot c with
            fadeLevel := BitVec.ofNat 32 (levelAfter (s.slot c))
            state := if (s.slot c).state = .fadingOut ∧ levelAfter (s.slot c) = 0 then .idle else (s.slot c).state
            fadeStep :=
              if 0 < (s.slot c).fadeStep.toInt ∧ levelAfter (s.slot c) = 2 ^ 24 then 0 else (s.slot c).fadeStep })

/-- R161, R160, R275: after FADE_OUT N a looping slot at level L0 is FadingOut at level L0 - k*q after k
passes while that is positive, and Idle at level 0 from then on, q the step's size; from full level the
Nth pass is the last exactly for powers of two under TowardZero, and N passes are always enough under
Floor. -/
def Obligations.FadeOutLength : Prop :=
  (∀ (s t : State) (ch h : BitVec 8) (c : Fin 8) (k : Nat),
    h.toNat = c.val → (s.slot c).state ≠ .free → (s.slot c).looping = true → (s.slot c).bufLen ≠ 0 →
    0 < (s.slot c).fadeLevel.toNat → (s.slot c).fadeLevel.toNat ≤ 2 ^ 24 → s.ctrlArg0 ≠ 0 →
    exec (.fadeOut h) s = .next t →
    ∃ u, passes ch k t = .next u ∧
      (k * fadeStepSize s.cfg.divRounding s.ctrlArg0.toNat < (s.slot c).fadeLevel.toNat →
        (u.slot c).state = .fadingOut ∧
        (u.slot c).fadeLevel.toNat =
          (s.slot c).fadeLevel.toNat - k * fadeStepSize s.cfg.divRounding s.ctrlArg0.toNat) ∧
      ((s.slot c).fadeLevel.toNat ≤ k * fadeStepSize s.cfg.divRounding s.ctrlArg0.toNat →
        (u.slot c).state = .idle ∧ (u.slot c).fadeLevel = 0)) ∧
  (∀ N : Nat, 0 < N →
    (2 ^ 24 ≤ N * fadeStepSize .towardZero N ↔ ∃ j ≤ 24, N = 2 ^ j) ∧
    2 ^ 24 ≤ N * fadeStepSize .floor N)

/-- R197: a non-looping slot that starts at its first frame has played k whole passes after pass k while
they fit in its buffer, and is Idle with its cursor at the end from pass floor(B / n) + 1 on. -/
def Obligations.ExhaustionTiming : Prop :=
  ∀ (s : State) (ch : BitVec 8) (c : Fin 8) (k : Nat), s.Inv → (s.slot c).state = .playing →
    (s.slot c).looping = false → (s.slot c).position = 0 → s.sampleCount ≠ 0 →
    ∃ u, passes ch k s = .next u ∧
      (k ≤ (s.slot c).bufLen.toNat / s.sampleCount.toNat →
        (u.slot c).state = .playing ∧ (u.slot c).position.toNat = k * s.sampleCount.toNat) ∧
      ((s.slot c).bufLen.toNat / s.sampleCount.toNat < k →
        (u.slot c).state = .idle ∧ (u.slot c).position = (s.slot c).bufLen)

/-- R194: an output sample of one lane depends on that lane's source samples and volumes alone. -/
def Obligations.LanesAreIndependent : Prop :=
  ∀ (s t s' t' : State) (ch : BitVec 8) (lane : Lane), s.Inv → s'.Inv → s.sampleCount.toNat ≤ 2 ^ 30 →
    s'.cfg = s.cfg → s'.ctrlArg0 = s.ctrlArg0 → s'.sampleCount = s.sampleCount → s'.masterVol = s.masterVol →
    (∀ c : Fin 8, (s.slot c).hostWrites = [] ∧
      s'.slot c = { s.slot c with
        volL := if lane = .left then (s.slot c).volL else (s'.slot c).volL
        volR := if lane = .right then (s.slot c).volR else (s'.slot c).volR } ∧
      ∀ q < (s.slot c).bufLen.toNat,
        sampleAt s.cfg s'.mem (sourceAddr (s.slot c) q lane) =
          sampleAt s.cfg s.mem (sourceAddr (s.slot c) q lane)) →
    exec (.mix ch) s = .next t → exec (.mix ch) s' = .next t' →
    ∀ i < s.sampleCount.toNat,
      sampleAt s.cfg t'.mem (outputBase s + 4 * i + lane.offset) =
        sampleAt s.cfg t.mem (outputBase s + 4 * i + lane.offset)

/-! ## The output port -/

/-- R212, R213, R218: RESERVE asks the Port for SAMPLE_COUNT frames and waits; an Ok exchanges the handle
in and releases the old one, an Err keeps it and records the code. -/
def Obligations.ReserveAsksThePort : Prop :=
  (∀ s : State, exec .reserve s = .next { s with
    outPhase := .awaitPort s.reqCount (.reserve s.sampleCount .stereoS16)
    portLog := s.portLog ++ [.request s.reqCount (.reserve s.sampleCount .stereoS16)]
    reqCount := s.reqCount + 1 }) ∧
  (∀ (s : State) (id : Nat) (f h : Word) (fmt : PortFormat) (rest : List Event),
    s.outPhase = .awaitPort id (.reserve f fmt) → s.agenda = .portAnswer id (.ok h) :: rest →
    step s = .next { s with
      agenda := rest
      outPhase := .idle
      outCode := .ok
      hw := some ⟨h, f⟩
      portLog := s.portLog ++ (match s.hw with
        | some old => [.release old.handle]
        | none => []) }) ∧
  (∀ (s : State) (id : Nat) (f e : Word) (fmt : PortFormat) (rest : List Event),
    s.outPhase = .awaitPort id (.reserve f fmt) → s.agenda = .portAnswer id (.err e) :: rest →
    step s = .next { s with
      agenda := rest, outPhase := .idle, outCode := .audioError, outErrcode := e })

/-- R214: RELEASE swaps the handle out and releases it if there was one; done twice, the second does
nothing more. -/
def Obligations.ReleaseIsIdempotent : Prop :=
  (∀ (s : State) (r : Reservation), s.hw = some r →
    exec .release s = .next { s with
      hw := none, outPhase := .idle, outCode := .ok, portLog := s.portLog ++ [.release r.handle] }) ∧
  (∀ s : State, s.hw = none → exec .release s = .next { s with outPhase := .idle, outCode := .ok }) ∧
  (∀ s t : State, exec .release s = .next t → exec .release t = .next t)

/-- R216: OUTPUT checks the length, then the reservation, then hands the Port the buffer at unity with the
reservation's size, and completes on the Port's answer. -/
def Obligations.OutputChecksThenAsksThePort : Prop :=
  (∀ s : State, s.outArg1.toNat < 2 * s.sampleCount.toNat →
    exec .output s = .next { s with outPhase := .idle, outCode := .invalidArgument }) ∧
  (∀ s : State, 2 * s.sampleCount.toNat ≤ s.outArg1.toNat → s.hw = none →
    exec .output s = .next { s with outPhase := .idle, outCode := .noHwChannel }) ∧
  (∀ (s : State) (r : Reservation) (req : PortReq), 2 * s.sampleCount.toNat ≤ s.outArg1.toNat → s.hw = some r →
    req = .output r.handle (BitVec.ofNat 32 (s.outArg0.toNat / 2 * 2)) (2 * r.frames.toNat) 0x8000 0x8000 →
    exec .output s = .next { s with
      outPhase := .awaitPort s.reqCount req
      portLog := s.portLog ++ [.request s.reqCount req]
      reqCount := s.reqCount + 1 }) ∧
  (∀ (s : State) (id : Nat) (h b l r : Word) (n : Nat) (rest : List Event),
    s.outPhase = .awaitPort id (.output h b n l r) →
    (∀ v, s.agenda = .portAnswer id (.ok v) :: rest →
      step s = .next { s with agenda := rest, outPhase := .idle, outCode := .ok }) ∧
    (∀ e, s.agenda = .portAnswer id (.err e) :: rest →
      step s = .next { s with
        agenda := rest, outPhase := .idle, outCode := .audioError, outErrcode := e }))

/-- R218, R276, R262: a port that waits for the Port goes on waiting, with its registers as they are,
until the answer to its own request or a reset. That any other answer does nothing is the model's: R262
says it of the requests a reset has abandoned, and log 11 of every answer no waiting request has the number
of. -/
def Obligations.OnlyItsAnswerOrResetEndsAWait : Prop :=
  (∀ (s t : State) (id : Nat) (req : PortReq), s.outPhase = .awaitPort id req → step s = .next t →
    ¬ Resets s → (∀ ans, s.agenda.head? ≠ some (.portAnswer id ans)) →
    t.outPhase = s.outPhase ∧ t.outCode = s.outCode ∧ t.outErrcode = s.outErrcode ∧ t.hw = s.hw ∧
      t.outArg0 = s.outArg0 ∧ t.outArg1 = s.outArg1 ∧ t.portLog = s.portLog) ∧
  (∀ (s : State) (id : Nat) (ans : PortAnswer) (rest : List Event),
    s.agenda = .portAnswer id ans :: rest → (∀ req, s.outPhase ≠ .awaitPort id req) →
    step s = .next { s with agenda := rest })

/-- R236, R211: a control command leaves the OUT port, the handle and what the Port has received alone,
and an output-port command leaves everything else alone. -/
def Obligations.PortsAreDisjoint : Prop :=
  ∀ (i : Instr) (s t : State), exec i s = .next t →
    (i.format = .ctrl32 →
      t.outArg0 = s.outArg0 ∧ t.outArg1 = s.outArg1 ∧ t.outPhase = s.outPhase ∧ t.outCode = s.outCode ∧
      t.outOvr = s.outOvr ∧ t.outErrcode = s.outErrcode ∧ t.hw = s.hw ∧ t.portLog = s.portLog ∧
      t.reqCount = s.reqCount) ∧
    (i.format = .out32 →
      t = { s with
        outPhase := t.outPhase, outCode := t.outCode, hw := t.hw, portLog := t.portLog,
        reqCount := t.reqCount })

/-- R236, R211: the order of a CTRL step and an OUT step does not show, unless the control command is
SET_SAMPLE_COUNT, whose register the ports share (the record of bytes written in flight apart). -/
def Obligations.EngineOrderDoesNotShow : Prop :=
  ∀ (s t u : State) (i j : Instr), i.format = .ctrl32 → (∀ ch, i ≠ .setSampleCount ch) → j.format = .out32 →
    exec i s = .next t → exec j s = .next u →
    ∃ t' u', exec j t = .next t' ∧ exec i u = .next u' ∧
      { t' with outTouched := [] } = { u' with outTouched := [] }

/-- R219, R213, R262: the Port is sent a release only of the handle that is held and is taken out in that
very step, and every handle that is taken out is released. -/
def Obligations.ReleasesAreOfTheHeldHandle : Prop :=
  ∀ s t : State, step s = .next t →
    (t.portLog = s.portLog ∨
      (∃ req, t.portLog = s.portLog ++ [.request s.reqCount req] ∧
        t.outPhase = .awaitPort s.reqCount req ∧ t.hw = s.hw) ∨
      (∃ r, s.hw = some r ∧ t.portLog = s.portLog ++ [.release r.handle] ∧
        (t.hw = none ∨ ∃ id h f, t.hw = some ⟨h, f⟩ ∧ s.agenda.head? = some (.portAnswer id (.ok h))))) ∧
    (∀ r, s.hw = some r → t.hw ≠ s.hw → t.portLog = s.portLog ++ [.release r.handle])

/-! ## The whole machine -/

/-- R40, R27, R28, R37: every step keeps the invariant. -/
def Obligations.StepKeepsTheInvariant : Prop :=
  ∀ s t : State, s.Inv → step s = .next t → t.Inv

/-- R22, R25, R26, R27, R28, R30, R33, R34, R35, R42, R235: each register and each status flag has its own
writers, and no step has another. BUSY is the full latch and the phase that is not Idle (log 6). -/
def Obligations.RegistersHaveTheirOwnWriters : Prop :=
  ∀ s t : State, step s = .next t →
    t.cfg = s.cfg ∧
    (t.ctrlArg0 ≠ s.ctrlArg0 → Resets s ∨ AccessesRegister s (.wrCtrlArg0 t.ctrlArg0)) ∧
    (t.ctrlArg1 ≠ s.ctrlArg1 → Resets s ∨ AccessesRegister s (.wrCtrlArg1 t.ctrlArg1)) ∧
    (t.ctrlArg2 ≠ s.ctrlArg2 → Resets s ∨ AccessesRegister s (.wrCtrlArg2 t.ctrlArg2)) ∧
    (t.outArg0 ≠ s.outArg0 → Resets s ∨ AccessesRegister s (.wrOutArg0 t.outArg0)) ∧
    (t.outArg1 ≠ s.outArg1 → Resets s ∨ AccessesRegister s (.wrOutArg1 t.outArg1)) ∧
    (t.ctrlResult ≠ s.ctrlResult → Resets s ∨ (t.ctrlCode = .ok ∧ ∃ ch, RunsControl s (.alloc ch))) ∧
    (t.masterVol ≠ s.masterVol → Resets s ∨ ∃ w, AccessesRegister s (.wrMasterVol w)) ∧
    (t.sampleCount ≠ s.sampleCount → Resets s ∨ ∃ ch, RunsControl s (.setSampleCount ch)) ∧
    (t.lockHeld ≠ s.lockHeld →
      Resets s ∨ AccessesRegister s .rdCtrlLock ∨ ∃ w, AccessesRegister s (.wrCtrlLock w)) ∧
    (t.outErrcode ≠ s.outErrcode →
      Resets s ∨ (t.outCode = .audioError ∧ ∃ id, s.agenda.head? = some (.portAnswer id (.err t.outErrcode)))) ∧
    (t.hw ≠ s.hw →
      Resets s ∨ RunsOutput s .release ∨ ∃ id h, s.agenda.head? = some (.portAnswer id (.ok h))) ∧
    (t.ctrlLatch ≠ s.ctrlLatch →
      Resets s ∨
        (s.ctrlLatch = none ∧ ∃ w, t.ctrlLatch = some w ∧ AccessesRegister s (.wrCtrlCmd w)) ∨
        (t.ctrlLatch = none ∧ ∃ i, RunsControl s i)) ∧
    (t.ctrlCode ≠ s.ctrlCode → Resets s ∨ (t.ctrlLatch = none ∧ ∃ i, RunsControl s i)) ∧
    (t.ctrlOvr ≠ s.ctrlOvr →
      Resets s ∨ (t.ctrlOvr = true ∧ s.ctrlLatch ≠ none ∧ WritesCtrlPort s) ∨
        (t.ctrlOvr = false ∧ ∃ w : Word, w.toNat / 512 % 2 = 1 ∧ AccessesRegister s (.wrCtrlStatus w))) ∧
    (t.outPhase ≠ s.outPhase →
      Resets s ∨
        (s.outPhase = .idle ∧ ∃ w, t.outPhase = .pending w ∧ AccessesRegister s (.wrOutCmd w)) ∨
        (∃ i, RunsOutput s i) ∨
        (t.outPhase = .idle ∧ ∃ id req ans, s.outPhase = .awaitPort id req ∧
          s.agenda.head? = some (.portAnswer id ans))) ∧
    (t.outCode ≠ s.outCode →
      Resets s ∨ (t.outPhase = .idle ∧ ((∃ i, RunsOutput s i) ∨
        ∃ id req ans, s.outPhase = .awaitPort id req ∧ s.agenda.head? = some (.portAnswer id ans)))) ∧
    (t.outOvr ≠ s.outOvr →
      Resets s ∨ (t.outOvr = true ∧ s.outPhase ≠ .idle ∧ WritesOutPort s) ∨
        (t.outOvr = false ∧ ∃ w : Word, w.toNat / 512 % 2 = 1 ∧ AccessesRegister s (.wrOutStatus w)))

/-- R60, R61: memory changes only by MIX, and by a host's write outside the window. -/
def Obligations.OnlyMixAndHostsWriteMemory : Prop :=
  ∀ s t : State, step s = .next t → t.mem ≠ s.mem →
    (∃ ch, RunsControl s (.mix ch)) ∨
      ∃ a w v, s.agenda.head? = some (.host ⟨a, w, .write v⟩) ∧ ¬ TouchesWindow s.cfg ⟨a, w, .write v⟩

/-- R76, R267: from acceptance to execution a control command's word, operands and sample count stay, and
so do the last command's results and every slot. -/
def Obligations.PendingCommandIsStable : Prop :=
  ∀ (s t : State) (w : Word), step s = .next t → s.ctrlLatch = some w →
    t.ctrlLatch = none ∨
      (t.ctrlLatch = some w ∧ t.ctrlArg0 = s.ctrlArg0 ∧ t.ctrlArg1 = s.ctrlArg1 ∧ t.ctrlArg2 = s.ctrlArg2 ∧
        t.sampleCount = s.sampleCount ∧ t.ctrlCode = s.ctrlCode ∧ t.ctrlResult = s.ctrlResult ∧
        ∀ c : Fin 8, SameSlot (t.slot c) (s.slot c))

/-- R62, R101, R68, R77: a host's 16-bit write stores the low half of its value as a sample and no other
byte; its 16-bit read completes whatever it reads, and returns the sample at the address, of which a byte in
the output region of a pending MIX is any value. A write of any width enters the record of a slot exactly if
the slot is not Free and the write meets its buffer, and changes nothing else of any slot. That an open byte
is the next free draw, the byte at the address first, and that the record is one of regions, are the model's:
log 10, log 9. -/
def Obligations.HostSampleAccess : Prop :=
  (∀ (s : State) (a v : Word) (rest : List Event), s.cfg.wf = true →
    s.agenda = .host ⟨a, .half, .write v⟩ :: rest →
    ¬ TouchesWindow s.cfg ⟨a, .half, .write v⟩ → Memory.wf s.mem = true →
    ∃ t, step s = .next t ∧
      sampleAt s.cfg t.mem a.toNat = (v.setWidth 16).toInt ∧
      (∀ x, x ≠ a.toNat → x ≠ (a.toNat + 1) % 2 ^ 32 → t.mem.read x = s.mem.read x) ∧
      (∀ c : Fin 8, SameSlot (t.slot c) (s.slot c)) ∧
      t = { s with agenda := rest, mem := t.mem, slots := t.slots, outTouched := t.outTouched }) ∧
  (∀ (s : State) (a : Word) (rest : List Event), s.cfg.wf = true →
    s.agenda = .host ⟨a, .half, .read⟩ :: rest →
    ¬ TouchesWindow s.cfg ⟨a, .half, .read⟩ →
    (∃ v d, step s = .next { s with agenda := rest, readData := v, draws := d }) ∧
    ((∀ w ch k, s.ctrlLatch = some w → decode (.ctrl w) = .ok (.mix ch) → k < 2 →
        OutsideOutput s ((a.toNat + k) % 2 ^ 32)) →
      step s = .next { s with agenda := rest, readData := BitVec.ofInt 32 (sampleAt s.cfg s.mem a.toNat) }) ∧
    ∀ b0 d1 b1 d2, SeesByte s a.toNat s.draws b0 d1 → SeesByte s ((a.toNat + 1) % 2 ^ 32) d1 b1 d2 →
      step s = .next { s with
        agenda := rest, readData := BitVec.ofInt 32 (sampleOf s.cfg.sampleEndian b0 b1), draws := d2 }) ∧
  (∀ (s : State) (a v : Word) (width : Width) (rest : List Event), s.cfg.wf = true →
    s.agenda = .host ⟨a, width, .write v⟩ :: rest → ¬ TouchesWindow s.cfg ⟨a, width, .write v⟩ →
    ∃ t, step s = .next t ∧ ∀ c : Fin 8,
      ((s.slot c).state ≠ .free → Meets ⟨(s.slot c).bufBase, 4 * (s.slot c).bufLen.toNat⟩ ⟨a, width.bytes⟩ →
        t.slot c = { s.slot c with hostWrites := ⟨a, width.bytes⟩ :: (s.slot c).hostWrites }) ∧
      ((s.slot c).state = .free ∨ ¬ Meets ⟨(s.slot c).bufBase, 4 * (s.slot c).bufLen.toNat⟩ ⟨a, width.bytes⟩ →
        t.slot c = s.slot c))

/-- R210, R78, R68, item 12: while an OUTPUT waits, the Port may read any byte of the buffer it was handed:
it gets the byte in memory, unless the byte was written since the OUTPUT's acceptance or lies in the output
region of a pending MIX, where it may get any value; and its read changes nothing else. What counts as
written since the acceptance is what hosts and MIX have stored since. That an open byte is the next free
draw (log 7, log 10), that the byte the Port gets stands in `portData`, and that a read of anything else
does nothing, are the model's: log 12. -/
def Obligations.PortReadsTheHandedBuffer : Prop :=
  (∀ (s : State) (a : Word) (rest : List Event), s.agenda = .portRead a :: rest →
    (∃ v d, step s = .next { s with agenda := rest, portData := v, draws := d }) ∧
    (∀ id h b n l r, s.outPhase = .awaitPort id (.output h b n l r) → ¬ OutsideRegion ⟨b, 2 * n⟩ a →
      (∀ q ∈ s.outTouched, OutsideRegion q a) →
      (∀ w ch, s.ctrlLatch = some w → decode (.ctrl w) = .ok (.mix ch) → OutsideOutput s a.toNat) →
      step s = .next { s with agenda := rest, portData := s.mem.read a.toNat }) ∧
    (∀ id h b n l r, s.outPhase = .awaitPort id (.output h b n l r) → ¬ OutsideRegion ⟨b, 2 * n⟩ a →
      ((∃ q ∈ s.outTouched, ¬ OutsideRegion q a) ∨ InPendingMix s a.toNat) →
      step s = .next { s with
        agenda := rest, portData := (Config.freeWord s.draws).setWidth 8, draws := s.draws + 1 }) ∧
    ((∀ id h b n l r, s.outPhase = .awaitPort id (.output h b n l r) → OutsideRegion ⟨b, 2 * n⟩ a) →
      step s = .next { s with agenda := rest })) ∧
  (∀ s : State, s.outPhase = .idle →
    ∃ t, exec (.wrOutCmd 3) s = .next t ∧ OutputInProgress t ∧ t.outTouched = []) ∧
  (∀ (s : State) (a v : Word) (width : Width) (rest : List Event), s.cfg.wf = true → OutputInProgress s →
    s.agenda = .host ⟨a, width, .write v⟩ :: rest → ¬ TouchesWindow s.cfg ⟨a, width, .write v⟩ →
    ∃ t, step s = .next t ∧ t.outTouched = ⟨a, width.bytes⟩ :: s.outTouched) ∧
  (∀ (s : State) (ch : BitVec 8), OutputInProgress s →
    ∃ t, exec (.mix ch) s = .next t ∧
      t.outTouched = ⟨BitVec.ofNat 32 (outputBase s), 4 * s.sampleCount.toNat⟩ :: s.outTouched)
end

