-- ==== Sys2Proof/Laws/State.lean ====
section
/-! SUPPORT. What each field is after each shared update of the state: one lemma per field. -/

namespace Sys2Proof.Machine

/-! ### setSlot -/

@[simp] theorem State.setSlot_cfg (s : State) (c : Fin 8) (sl : Slot) : (s.setSlot c sl).cfg = s.cfg := rfl
@[simp] theorem State.setSlot_ctrlArg0 (s : State) (c : Fin 8) (sl : Slot) : (s.setSlot c sl).ctrlArg0 = s.ctrlArg0 := rfl
@[simp] theorem State.setSlot_ctrlArg1 (s : State) (c : Fin 8) (sl : Slot) : (s.setSlot c sl).ctrlArg1 = s.ctrlArg1 := rfl
@[simp] theorem State.setSlot_ctrlArg2 (s : State) (c : Fin 8) (sl : Slot) : (s.setSlot c sl).ctrlArg2 = s.ctrlArg2 := rfl
@[simp] theorem State.setSlot_ctrlLatch (s : State) (c : Fin 8) (sl : Slot) : (s.setSlot c sl).ctrlLatch = s.ctrlLatch := rfl
@[simp] theorem State.setSlot_ctrlCode (s : State) (c : Fin 8) (sl : Slot) : (s.setSlot c sl).ctrlCode = s.ctrlCode := rfl
@[simp] theorem State.setSlot_ctrlOvr (s : State) (c : Fin 8) (sl : Slot) : (s.setSlot c sl).ctrlOvr = s.ctrlOvr := rfl
@[simp] theorem State.setSlot_ctrlResult (s : State) (c : Fin 8) (sl : Slot) : (s.setSlot c sl).ctrlResult = s.ctrlResult := rfl
@[simp] theorem State.setSlot_masterVol (s : State) (c : Fin 8) (sl : Slot) : (s.setSlot c sl).masterVol = s.masterVol := rfl
@[simp] theorem State.setSlot_sampleCount (s : State) (c : Fin 8) (sl : Slot) : (s.setSlot c sl).sampleCount = s.sampleCount := rfl
@[simp] theorem State.setSlot_lockHeld (s : State) (c : Fin 8) (sl : Slot) : (s.setSlot c sl).lockHeld = s.lockHeld := rfl
@[simp] theorem State.setSlot_outArg0 (s : State) (c : Fin 8) (sl : Slot) : (s.setSlot c sl).outArg0 = s.outArg0 := rfl
@[simp] theorem State.setSlot_outArg1 (s : State) (c : Fin 8) (sl : Slot) : (s.setSlot c sl).outArg1 = s.outArg1 := rfl
@[simp] theorem State.setSlot_outPhase (s : State) (c : Fin 8) (sl : Slot) : (s.setSlot c sl).outPhase = s.outPhase := rfl
@[simp] theorem State.setSlot_outCode (s : State) (c : Fin 8) (sl : Slot) : (s.setSlot c sl).outCode = s.outCode := rfl
@[simp] theorem State.setSlot_outOvr (s : State) (c : Fin 8) (sl : Slot) : (s.setSlot c sl).outOvr = s.outOvr := rfl
@[simp] theorem State.setSlot_outErrcode (s : State) (c : Fin 8) (sl : Slot) : (s.setSlot c sl).outErrcode = s.outErrcode := rfl
@[simp] theorem State.setSlot_hw (s : State) (c : Fin 8) (sl : Slot) : (s.setSlot c sl).hw = s.hw := rfl
@[simp] theorem State.setSlot_slots (s : State) (c : Fin 8) (sl : Slot) : (s.setSlot c sl).slots = s.slots.set c sl := rfl
@[simp] theorem State.setSlot_mem (s : State) (c : Fin 8) (sl : Slot) : (s.setSlot c sl).mem = s.mem := rfl
@[simp] theorem State.setSlot_outTouched (s : State) (c : Fin 8) (sl : Slot) : (s.setSlot c sl).outTouched = s.outTouched := rfl
@[simp] theorem State.setSlot_agenda (s : State) (c : Fin 8) (sl : Slot) : (s.setSlot c sl).agenda = s.agenda := rfl
@[simp] theorem State.setSlot_readData (s : State) (c : Fin 8) (sl : Slot) : (s.setSlot c sl).readData = s.readData := rfl
@[simp] theorem State.setSlot_portData (s : State) (c : Fin 8) (sl : Slot) : (s.setSlot c sl).portData = s.portData := rfl
@[simp] theorem State.setSlot_portLog (s : State) (c : Fin 8) (sl : Slot) : (s.setSlot c sl).portLog = s.portLog := rfl
@[simp] theorem State.setSlot_reqCount (s : State) (c : Fin 8) (sl : Slot) : (s.setSlot c sl).reqCount = s.reqCount := rfl
@[simp] theorem State.setSlot_draws (s : State) (c : Fin 8) (sl : Slot) : (s.setSlot c sl).draws = s.draws := rfl

/-! ### drawn -/

@[simp] theorem State.drawn_cfg (s : State) (n : Nat) : (s.drawn n).cfg = s.cfg := rfl
@[simp] theorem State.drawn_ctrlArg0 (s : State) (n : Nat) : (s.drawn n).ctrlArg0 = s.ctrlArg0 := rfl
@[simp] theorem State.drawn_ctrlArg1 (s : State) (n : Nat) : (s.drawn n).ctrlArg1 = s.ctrlArg1 := rfl
@[simp] theorem State.drawn_ctrlArg2 (s : State) (n : Nat) : (s.drawn n).ctrlArg2 = s.ctrlArg2 := rfl
@[simp] theorem State.drawn_ctrlLatch (s : State) (n : Nat) : (s.drawn n).ctrlLatch = s.ctrlLatch := rfl
@[simp] theorem State.drawn_ctrlCode (s : State) (n : Nat) : (s.drawn n).ctrlCode = s.ctrlCode := rfl
@[simp] theorem State.drawn_ctrlOvr (s : State) (n : Nat) : (s.drawn n).ctrlOvr = s.ctrlOvr := rfl
@[simp] theorem State.drawn_ctrlResult (s : State) (n : Nat) : (s.drawn n).ctrlResult = s.ctrlResult := rfl
@[simp] theorem State.drawn_masterVol (s : State) (n : Nat) : (s.drawn n).masterVol = s.masterVol := rfl
@[simp] theorem State.drawn_sampleCount (s : State) (n : Nat) : (s.drawn n).sampleCount = s.sampleCount := rfl
@[simp] theorem State.drawn_lockHeld (s : State) (n : Nat) : (s.drawn n).lockHeld = s.lockHeld := rfl
@[simp] theorem State.drawn_outArg0 (s : State) (n : Nat) : (s.drawn n).outArg0 = s.outArg0 := rfl
@[simp] theorem State.drawn_outArg1 (s : State) (n : Nat) : (s.drawn n).outArg1 = s.outArg1 := rfl
@[simp] theorem State.drawn_outPhase (s : State) (n : Nat) : (s.drawn n).outPhase = s.outPhase := rfl
@[simp] theorem State.drawn_outCode (s : State) (n : Nat) : (s.drawn n).outCode = s.outCode := rfl
@[simp] theorem State.drawn_outOvr (s : State) (n : Nat) : (s.drawn n).outOvr = s.outOvr := rfl
@[simp] theorem State.drawn_outErrcode (s : State) (n : Nat) : (s.drawn n).outErrcode = s.outErrcode := rfl
@[simp] theorem State.drawn_hw (s : State) (n : Nat) : (s.drawn n).hw = s.hw := rfl
@[simp] theorem State.drawn_slots (s : State) (n : Nat) : (s.drawn n).slots = s.slots := rfl
@[simp] theorem State.drawn_mem (s : State) (n : Nat) : (s.drawn n).mem = s.mem := rfl
@[simp] theorem State.drawn_outTouched (s : State) (n : Nat) : (s.drawn n).outTouched = s.outTouched := rfl
@[simp] theorem State.drawn_agenda (s : State) (n : Nat) : (s.drawn n).agenda = s.agenda := rfl
@[simp] theorem State.drawn_readData (s : State) (n : Nat) : (s.drawn n).readData = s.readData := rfl
@[simp] theorem State.drawn_portData (s : State) (n : Nat) : (s.drawn n).portData = s.portData := rfl
@[simp] theorem State.drawn_portLog (s : State) (n : Nat) : (s.drawn n).portLog = s.portLog := rfl
@[simp] theorem State.drawn_reqCount (s : State) (n : Nat) : (s.drawn n).reqCount = s.reqCount := rfl
@[simp] theorem State.drawn_draws (s : State) (n : Nat) : (s.drawn n).draws = s.draws + n := rfl

/-! ### respond -/

@[simp] theorem State.respond_cfg (s : State) (v : Word) : (s.respond v).cfg = s.cfg := rfl
@[simp] theorem State.respond_ctrlArg0 (s : State) (v : Word) : (s.respond v).ctrlArg0 = s.ctrlArg0 := rfl
@[simp] theorem State.respond_ctrlArg1 (s : State) (v : Word) : (s.respond v).ctrlArg1 = s.ctrlArg1 := rfl
@[simp] theorem State.respond_ctrlArg2 (s : State) (v : Word) : (s.respond v).ctrlArg2 = s.ctrlArg2 := rfl
@[simp] theorem State.respond_ctrlLatch (s : State) (v : Word) : (s.respond v).ctrlLatch = s.ctrlLatch := rfl
@[simp] theorem State.respond_ctrlCode (s : State) (v : Word) : (s.respond v).ctrlCode = s.ctrlCode := rfl
@[simp] theorem State.respond_ctrlOvr (s : State) (v : Word) : (s.respond v).ctrlOvr = s.ctrlOvr := rfl
@[simp] theorem State.respond_ctrlResult (s : State) (v : Word) : (s.respond v).ctrlResult = s.ctrlResult := rfl
@[simp] theorem State.respond_masterVol (s : State) (v : Word) : (s.respond v).masterVol = s.masterVol := rfl
@[simp] theorem State.respond_sampleCount (s : State) (v : Word) : (s.respond v).sampleCount = s.sampleCount := rfl
@[simp] theorem State.respond_lockHeld (s : State) (v : Word) : (s.respond v).lockHeld = s.lockHeld := rfl
@[simp] theorem State.respond_outArg0 (s : State) (v : Word) : (s.respond v).outArg0 = s.outArg0 := rfl
@[simp] theorem State.respond_outArg1 (s : State) (v : Word) : (s.respond v).outArg1 = s.outArg1 := rfl
@[simp] theorem State.respond_outPhase (s : State) (v : Word) : (s.respond v).outPhase = s.outPhase := rfl
@[simp] theorem State.respond_outCode (s : State) (v : Word) : (s.respond v).outCode = s.outCode := rfl
@[simp] theorem State.respond_outOvr (s : State) (v : Word) : (s.respond v).outOvr = s.outOvr := rfl
@[simp] theorem State.respond_outErrcode (s : State) (v : Word) : (s.respond v).outErrcode = s.outErrcode := rfl
@[simp] theorem State.respond_hw (s : State) (v : Word) : (s.respond v).hw = s.hw := rfl
@[simp] theorem State.respond_slots (s : State) (v : Word) : (s.respond v).slots = s.slots := rfl
@[simp] theorem State.respond_mem (s : State) (v : Word) : (s.respond v).mem = s.mem := rfl
@[simp] theorem State.respond_outTouched (s : State) (v : Word) : (s.respond v).outTouched = s.outTouched := rfl
@[simp] theorem State.respond_agenda (s : State) (v : Word) : (s.respond v).agenda = s.agenda := rfl
@[simp] theorem State.respond_readData (s : State) (v : Word) : (s.respond v).readData = v := rfl
@[simp] theorem State.respond_portData (s : State) (v : Word) : (s.respond v).portData = s.portData := rfl
@[simp] theorem State.respond_portLog (s : State) (v : Word) : (s.respond v).portLog = s.portLog := rfl
@[simp] theorem State.respond_reqCount (s : State) (v : Word) : (s.respond v).reqCount = s.reqCount := rfl
@[simp] theorem State.respond_draws (s : State) (v : Word) : (s.respond v).draws = s.draws := rfl

/-! ### completeCtrl -/

@[simp] theorem State.completeCtrl_cfg (s : State) (k : ResultCode) : (s.completeCtrl k).cfg = s.cfg := rfl
@[simp] theorem State.completeCtrl_ctrlArg0 (s : State) (k : ResultCode) : (s.completeCtrl k).ctrlArg0 = s.ctrlArg0 := rfl
@[simp] theorem State.completeCtrl_ctrlArg1 (s : State) (k : ResultCode) : (s.completeCtrl k).ctrlArg1 = s.ctrlArg1 := rfl
@[simp] theorem State.completeCtrl_ctrlArg2 (s : State) (k : ResultCode) : (s.completeCtrl k).ctrlArg2 = s.ctrlArg2 := rfl
@[simp] theorem State.completeCtrl_ctrlLatch (s : State) (k : ResultCode) : (s.completeCtrl k).ctrlLatch = none := rfl
@[simp] theorem State.completeCtrl_ctrlCode (s : State) (k : ResultCode) : (s.completeCtrl k).ctrlCode = k := rfl
@[simp] theorem State.completeCtrl_ctrlOvr (s : State) (k : ResultCode) : (s.completeCtrl k).ctrlOvr = s.ctrlOvr := rfl
@[simp] theorem State.completeCtrl_ctrlResult (s : State) (k : ResultCode) : (s.completeCtrl k).ctrlResult = s.ctrlResult := rfl
@[simp] theorem State.completeCtrl_masterVol (s : State) (k : ResultCode) : (s.completeCtrl k).masterVol = s.masterVol := rfl
@[simp] theorem State.completeCtrl_sampleCount (s : State) (k : ResultCode) : (s.completeCtrl k).sampleCount = s.sampleCount := rfl
@[simp] theorem State.completeCtrl_lockHeld (s : State) (k : ResultCode) : (s.completeCtrl k).lockHeld = s.lockHeld := rfl
@[simp] theorem State.completeCtrl_outArg0 (s : State) (k : ResultCode) : (s.completeCtrl k).outArg0 = s.outArg0 := rfl
@[simp] theorem State.completeCtrl_outArg1 (s : State) (k : ResultCode) : (s.completeCtrl k).outArg1 = s.outArg1 := rfl
@[simp] theorem State.completeCtrl_outPhase (s : State) (k : ResultCode) : (s.completeCtrl k).outPhase = s.outPhase := rfl
@[simp] theorem State.completeCtrl_outCode (s : State) (k : ResultCode) : (s.completeCtrl k).outCode = s.outCode := rfl
@[simp] theorem State.completeCtrl_outOvr (s : State) (k : ResultCode) : (s.completeCtrl k).outOvr = s.outOvr := rfl
@[simp] theorem State.completeCtrl_outErrcode (s : State) (k : ResultCode) : (s.completeCtrl k).outErrcode = s.outErrcode := rfl
@[simp] theorem State.completeCtrl_hw (s : State) (k : ResultCode) : (s.completeCtrl k).hw = s.hw := rfl
@[simp] theorem State.completeCtrl_slots (s : State) (k : ResultCode) : (s.completeCtrl k).slots = s.slots := rfl
@[simp] theorem State.completeCtrl_mem (s : State) (k : ResultCode) : (s.completeCtrl k).mem = s.mem := rfl
@[simp] theorem State.completeCtrl_outTouched (s : State) (k : ResultCode) : (s.completeCtrl k).outTouched = s.outTouched := rfl
@[simp] theorem State.completeCtrl_agenda (s : State) (k : ResultCode) : (s.completeCtrl k).agenda = s.agenda := rfl
@[simp] theorem State.completeCtrl_readData (s : State) (k : ResultCode) : (s.completeCtrl k).readData = s.readData := rfl
@[simp] theorem State.completeCtrl_portData (s : State) (k : ResultCode) : (s.completeCtrl k).portData = s.portData := rfl
@[simp] theorem State.completeCtrl_portLog (s : State) (k : ResultCode) : (s.completeCtrl k).portLog = s.portLog := rfl
@[simp] theorem State.completeCtrl_reqCount (s : State) (k : ResultCode) : (s.completeCtrl k).reqCount = s.reqCount := rfl
@[simp] theorem State.completeCtrl_draws (s : State) (k : ResultCode) : (s.completeCtrl k).draws = s.draws := rfl

/-! ### completeOut -/

@[simp] theorem State.completeOut_cfg (s : State) (k : ResultCode) : (s.completeOut k).cfg = s.cfg := rfl
@[simp] theorem State.completeOut_ctrlArg0 (s : State) (k : ResultCode) : (s.completeOut k).ctrlArg0 = s.ctrlArg0 := rfl
@[simp] theorem State.completeOut_ctrlArg1 (s : State) (k : ResultCode) : (s.completeOut k).ctrlArg1 = s.ctrlArg1 := rfl
@[simp] theorem State.completeOut_ctrlArg2 (s : State) (k : ResultCode) : (s.completeOut k).ctrlArg2 = s.ctrlArg2 := rfl
@[simp] theorem State.completeOut_ctrlLatch (s : State) (k : ResultCode) : (s.completeOut k).ctrlLatch = s.ctrlLatch := rfl
@[simp] theorem State.completeOut_ctrlCode (s : State) (k : ResultCode) : (s.completeOut k).ctrlCode = s.ctrlCode := rfl
@[simp] theorem State.completeOut_ctrlOvr (s : State) (k : ResultCode) : (s.completeOut k).ctrlOvr = s.ctrlOvr := rfl
@[simp] theorem State.completeOut_ctrlResult (s : State) (k : ResultCode) : (s.completeOut k).ctrlResult = s.ctrlResult := rfl
@[simp] theorem State.completeOut_masterVol (s : State) (k : ResultCode) : (s.completeOut k).masterVol = s.masterVol := rfl
@[simp] theorem State.completeOut_sampleCount (s : State) (k : ResultCode) : (s.completeOut k).sampleCount = s.sampleCount := rfl
@[simp] theorem State.completeOut_lockHeld (s : State) (k : ResultCode) : (s.completeOut k).lockHeld = s.lockHeld := rfl
@[simp] theorem State.completeOut_outArg0 (s : State) (k : ResultCode) : (s.completeOut k).outArg0 = s.outArg0 := rfl
@[simp] theorem State.completeOut_outArg1 (s : State) (k : ResultCode) : (s.completeOut k).outArg1 = s.outArg1 := rfl
@[simp] theorem State.completeOut_outPhase (s : State) (k : ResultCode) : (s.completeOut k).outPhase = .idle := rfl
@[simp] theorem State.completeOut_outCode (s : State) (k : ResultCode) : (s.completeOut k).outCode = k := rfl
@[simp] theorem State.completeOut_outOvr (s : State) (k : ResultCode) : (s.completeOut k).outOvr = s.outOvr := rfl
@[simp] theorem State.completeOut_outErrcode (s : State) (k : ResultCode) : (s.completeOut k).outErrcode = s.outErrcode := rfl
@[simp] theorem State.completeOut_hw (s : State) (k : ResultCode) : (s.completeOut k).hw = s.hw := rfl
@[simp] theorem State.completeOut_slots (s : State) (k : ResultCode) : (s.completeOut k).slots = s.slots := rfl
@[simp] theorem State.completeOut_mem (s : State) (k : ResultCode) : (s.completeOut k).mem = s.mem := rfl
@[simp] theorem State.completeOut_outTouched (s : State) (k : ResultCode) : (s.completeOut k).outTouched = s.outTouched := rfl
@[simp] theorem State.completeOut_agenda (s : State) (k : ResultCode) : (s.completeOut k).agenda = s.agenda := rfl
@[simp] theorem State.completeOut_readData (s : State) (k : ResultCode) : (s.completeOut k).readData = s.readData := rfl
@[simp] theorem State.completeOut_portData (s : State) (k : ResultCode) : (s.completeOut k).portData = s.portData := rfl
@[simp] theorem State.completeOut_portLog (s : State) (k : ResultCode) : (s.completeOut k).portLog = s.portLog := rfl
@[simp] theorem State.completeOut_reqCount (s : State) (k : ResultCode) : (s.completeOut k).reqCount = s.reqCount := rfl
@[simp] theorem State.completeOut_draws (s : State) (k : ResultCode) : (s.completeOut k).draws = s.draws := rfl

/-! ### audioError -/

@[simp] theorem State.audioError_cfg (s : State) (v : Word) : (s.audioError v).cfg = s.cfg := rfl
@[simp] theorem State.audioError_ctrlArg0 (s : State) (v : Word) : (s.audioError v).ctrlArg0 = s.ctrlArg0 := rfl
@[simp] theorem State.audioError_ctrlArg1 (s : State) (v : Word) : (s.audioError v).ctrlArg1 = s.ctrlArg1 := rfl
@[simp] theorem State.audioError_ctrlArg2 (s : State) (v : Word) : (s.audioError v).ctrlArg2 = s.ctrlArg2 := rfl
@[simp] theorem State.audioError_ctrlLatch (s : State) (v : Word) : (s.audioError v).ctrlLatch = s.ctrlLatch := rfl
@[simp] theorem State.audioError_ctrlCode (s : State) (v : Word) : (s.audioError v).ctrlCode = s.ctrlCode := rfl
@[simp] theorem State.audioError_ctrlOvr (s : State) (v : Word) : (s.audioError v).ctrlOvr = s.ctrlOvr := rfl
@[simp] theorem State.audioError_ctrlResult (s : State) (v : Word) : (s.audioError v).ctrlResult = s.ctrlResult := rfl
@[simp] theorem State.audioError_masterVol (s : State) (v : Word) : (s.audioError v).masterVol = s.masterVol := rfl
@[simp] theorem State.audioError_sampleCount (s : State) (v : Word) : (s.audioError v).sampleCount = s.sampleCount := rfl
@[simp] theorem State.audioError_lockHeld (s : State) (v : Word) : (s.audioError v).lockHeld = s.lockHeld := rfl
@[simp] theorem State.audioError_outArg0 (s : State) (v : Word) : (s.audioError v).outArg0 = s.outArg0 := rfl
@[simp] theorem State.audioError_outArg1 (s : State) (v : Word) : (s.audioError v).outArg1 = s.outArg1 := rfl
@[simp] theorem State.audioError_outPhase (s : State) (v : Word) : (s.audioError v).outPhase = .idle := rfl
@[simp] theorem State.audioError_outCode (s : State) (v : Word) : (s.audioError v).outCode = .audioError := rfl
@[simp] theorem State.audioError_outOvr (s : State) (v : Word) : (s.audioError v).outOvr = s.outOvr := rfl
@[simp] theorem State.audioError_outErrcode (s : State) (v : Word) : (s.audioError v).outErrcode = v := rfl
@[simp] theorem State.audioError_hw (s : State) (v : Word) : (s.audioError v).hw = s.hw := rfl
@[simp] theorem State.audioError_slots (s : State) (v : Word) : (s.audioError v).slots = s.slots := rfl
@[simp] theorem State.audioError_mem (s : State) (v : Word) : (s.audioError v).mem = s.mem := rfl
@[simp] theorem State.audioError_outTouched (s : State) (v : Word) : (s.audioError v).outTouched = s.outTouched := rfl
@[simp] theorem State.audioError_agenda (s : State) (v : Word) : (s.audioError v).agenda = s.agenda := rfl
@[simp] theorem State.audioError_readData (s : State) (v : Word) : (s.audioError v).readData = s.readData := rfl
@[simp] theorem State.audioError_portData (s : State) (v : Word) : (s.audioError v).portData = s.portData := rfl
@[simp] theorem State.audioError_portLog (s : State) (v : Word) : (s.audioError v).portLog = s.portLog := rfl
@[simp] theorem State.audioError_reqCount (s : State) (v : Word) : (s.audioError v).reqCount = s.reqCount := rfl
@[simp] theorem State.audioError_draws (s : State) (v : Word) : (s.audioError v).draws = s.draws := rfl

/-! ### sendRelease -/

@[simp] theorem State.sendRelease_cfg (s : State) (h : Word) : (s.sendRelease h).cfg = s.cfg := rfl
@[simp] theorem State.sendRelease_ctrlArg0 (s : State) (h : Word) : (s.sendRelease h).ctrlArg0 = s.ctrlArg0 := rfl
@[simp] theorem State.sendRelease_ctrlArg1 (s : State) (h : Word) : (s.sendRelease h).ctrlArg1 = s.ctrlArg1 := rfl
@[simp] theorem State.sendRelease_ctrlArg2 (s : State) (h : Word) : (s.sendRelease h).ctrlArg2 = s.ctrlArg2 := rfl
@[simp] theorem State.sendRelease_ctrlLatch (s : State) (h : Word) : (s.sendRelease h).ctrlLatch = s.ctrlLatch := rfl
@[simp] theorem State.sendRelease_ctrlCode (s : State) (h : Word) : (s.sendRelease h).ctrlCode = s.ctrlCode := rfl
@[simp] theorem State.sendRelease_ctrlOvr (s : State) (h : Word) : (s.sendRelease h).ctrlOvr = s.ctrlOvr := rfl
@[simp] theorem State.sendRelease_ctrlResult (s : State) (h : Word) : (s.sendRelease h).ctrlResult = s.ctrlResult := rfl
@[simp] theorem State.sendRelease_masterVol (s : State) (h : Word) : (s.sendRelease h).masterVol = s.masterVol := rfl
@[simp] theorem State.sendRelease_sampleCount (s : State) (h : Word) : (s.sendRelease h).sampleCount = s.sampleCount := rfl
@[simp] theorem State.sendRelease_lockHeld (s : State) (h : Word) : (s.sendRelease h).lockHeld = s.lockHeld := rfl
@[simp] theorem State.sendRelease_outArg0 (s : State) (h : Word) : (s.sendRelease h).outArg0 = s.outArg0 := rfl
@[simp] theorem State.sendRelease_outArg1 (s : State) (h : Word) : (s.sendRelease h).outArg1 = s.outArg1 := rfl
@[simp] theorem State.sendRelease_outPhase (s : State) (h : Word) : (s.sendRelease h).outPhase = s.outPhase := rfl
@[simp] theorem State.sendRelease_outCode (s : State) (h : Word) : (s.sendRelease h).outCode = s.outCode := rfl
@[simp] theorem State.sendRelease_outOvr (s : State) (h : Word) : (s.sendRelease h).outOvr = s.outOvr := rfl
@[simp] theorem State.sendRelease_outErrcode (s : State) (h : Word) : (s.sendRelease h).outErrcode = s.outErrcode := rfl
@[simp] theorem State.sendRelease_hw (s : State) (h : Word) : (s.sendRelease h).hw = s.hw := rfl
@[simp] theorem State.sendRelease_slots (s : State) (h : Word) : (s.sendRelease h).slots = s.slots := rfl
@[simp] theorem State.sendRelease_mem (s : State) (h : Word) : (s.sendRelease h).mem = s.mem := rfl
@[simp] theorem State.sendRelease_outTouched (s : State) (h : Word) : (s.sendRelease h).outTouched = s.outTouched := rfl
@[simp] theorem State.sendRelease_agenda (s : State) (h : Word) : (s.sendRelease h).agenda = s.agenda := rfl
@[simp] theorem State.sendRelease_readData (s : State) (h : Word) : (s.sendRelease h).readData = s.readData := rfl
@[simp] theorem State.sendRelease_portData (s : State) (h : Word) : (s.sendRelease h).portData = s.portData := rfl
@[simp] theorem State.sendRelease_portLog (s : State) (h : Word) : (s.sendRelease h).portLog = s.portLog ++ [.release h] := rfl
@[simp] theorem State.sendRelease_reqCount (s : State) (h : Word) : (s.sendRelease h).reqCount = s.reqCount := rfl
@[simp] theorem State.sendRelease_draws (s : State) (h : Word) : (s.sendRelease h).draws = s.draws := rfl

/-! ### portCall -/

@[simp] theorem State.portCall_cfg (s : State) (q : PortReq) : (s.portCall q).cfg = s.cfg := rfl
@[simp] theorem State.portCall_ctrlArg0 (s : State) (q : PortReq) : (s.portCall q).ctrlArg0 = s.ctrlArg0 := rfl
@[simp] theorem State.portCall_ctrlArg1 (s : State) (q : PortReq) : (s.portCall q).ctrlArg1 = s.ctrlArg1 := rfl
@[simp] theorem State.portCall_ctrlArg2 (s : State) (q : PortReq) : (s.portCall q).ctrlArg2 = s.ctrlArg2 := rfl
@[simp] theorem State.portCall_ctrlLatch (s : State) (q : PortReq) : (s.portCall q).ctrlLatch = s.ctrlLatch := rfl
@[simp] theorem State.portCall_ctrlCode (s : State) (q : PortReq) : (s.portCall q).ctrlCode = s.ctrlCode := rfl
@[simp] theorem State.portCall_ctrlOvr (s : State) (q : PortReq) : (s.portCall q).ctrlOvr = s.ctrlOvr := rfl
@[simp] theorem State.portCall_ctrlResult (s : State) (q : PortReq) : (s.portCall q).ctrlResult = s.ctrlResult := rfl
@[simp] theorem State.portCall_masterVol (s : State) (q : PortReq) : (s.portCall q).masterVol = s.masterVol := rfl
@[simp] theorem State.portCall_sampleCount (s : State) (q : PortReq) : (s.portCall q).sampleCount = s.sampleCount := rfl
@[simp] theorem State.portCall_lockHeld (s : State) (q : PortReq) : (s.portCall q).lockHeld = s.lockHeld := rfl
@[simp] theorem State.portCall_outArg0 (s : State) (q : PortReq) : (s.portCall q).outArg0 = s.outArg0 := rfl
@[simp] theorem State.portCall_outArg1 (s : State) (q : PortReq) : (s.portCall q).outArg1 = s.outArg1 := rfl
@[simp] theorem State.portCall_outPhase (s : State) (q : PortReq) : (s.portCall q).outPhase = .awaitPort s.reqCount q := rfl
@[simp] theorem State.portCall_outCode (s : State) (q : PortReq) : (s.portCall q).outCode = s.outCode := rfl
@[simp] theorem State.portCall_outOvr (s : State) (q : PortReq) : (s.portCall q).outOvr = s.outOvr := rfl
@[simp] theorem State.portCall_outErrcode (s : State) (q : PortReq) : (s.portCall q).outErrcode = s.outErrcode := rfl
@[simp] theorem State.portCall_hw (s : State) (q : PortReq) : (s.portCall q).hw = s.hw := rfl
@[simp] theorem State.portCall_slots (s : State) (q : PortReq) : (s.portCall q).slots = s.slots := rfl
@[simp] theorem State.portCall_mem (s : State) (q : PortReq) : (s.portCall q).mem = s.mem := rfl
@[simp] theorem State.portCall_outTouched (s : State) (q : PortReq) : (s.portCall q).outTouched = s.outTouched := rfl
@[simp] theorem State.portCall_agenda (s : State) (q : PortReq) : (s.portCall q).agenda = s.agenda := rfl
@[simp] theorem State.portCall_readData (s : State) (q : PortReq) : (s.portCall q).readData = s.readData := rfl
@[simp] theorem State.portCall_portData (s : State) (q : PortReq) : (s.portCall q).portData = s.portData := rfl
@[simp] theorem State.portCall_portLog (s : State) (q : PortReq) : (s.portCall q).portLog = s.portLog ++ [.request s.reqCount q] := rfl
@[simp] theorem State.portCall_reqCount (s : State) (q : PortReq) : (s.portCall q).reqCount = s.reqCount + 1 := rfl
@[simp] theorem State.portCall_draws (s : State) (q : PortReq) : (s.portCall q).draws = s.draws := rfl

/-! ### releaseOld -/

@[simp] theorem State.releaseOld_cfg (s : State) (o : Option Reservation) : (s.releaseOld o).cfg = s.cfg := by cases o <;> simp [State.releaseOld, State.sendRelease]
@[simp] theorem State.releaseOld_ctrlArg0 (s : State) (o : Option Reservation) : (s.releaseOld o).ctrlArg0 = s.ctrlArg0 := by cases o <;> simp [State.releaseOld, State.sendRelease]
@[simp] theorem State.releaseOld_ctrlArg1 (s : State) (o : Option Reservation) : (s.releaseOld o).ctrlArg1 = s.ctrlArg1 := by cases o <;> simp [State.releaseOld, State.sendRelease]
@[simp] theorem State.releaseOld_ctrlArg2 (s : State) (o : Option Reservation) : (s.releaseOld o).ctrlArg2 = s.ctrlArg2 := by cases o <;> simp [State.releaseOld, State.sendRelease]
@[simp] theorem State.releaseOld_ctrlLatch (s : State) (o : Option Reservation) : (s.releaseOld o).ctrlLatch = s.ctrlLatch := by cases o <;> simp [State.releaseOld, State.sendRelease]
@[simp] theorem State.releaseOld_ctrlCode (s : State) (o : Option Reservation) : (s.releaseOld o).ctrlCode = s.ctrlCode := by cases o <;> simp [State.releaseOld, State.sendRelease]
@[simp] theorem State.releaseOld_ctrlOvr (s : State) (o : Option Reservation) : (s.releaseOld o).ctrlOvr = s.ctrlOvr := by cases o <;> simp [State.releaseOld, State.sendRelease]
@[simp] theorem State.releaseOld_ctrlResult (s : State) (o : Option Reservation) : (s.releaseOld o).ctrlResult = s.ctrlResult := by cases o <;> simp [State.releaseOld, State.sendRelease]
@[simp] theorem State.releaseOld_masterVol (s : State) (o : Option Reservation) : (s.releaseOld o).masterVol = s.masterVol := by cases o <;> simp [State.releaseOld, State.sendRelease]
@[simp] theorem State.releaseOld_sampleCount (s : State) (o : Option Reservation) : (s.releaseOld o).sampleCount = s.sampleCount := by cases o <;> simp [State.releaseOld, State.sendRelease]
@[simp] theorem State.releaseOld_lockHeld (s : State) (o : Option Reservation) : (s.releaseOld o).lockHeld = s.lockHeld := by cases o <;> simp [State.releaseOld, State.sendRelease]
@[simp] theorem State.releaseOld_outArg0 (s : State) (o : Option Reservation) : (s.releaseOld o).outArg0 = s.outArg0 := by cases o <;> simp [State.releaseOld, State.sendRelease]
@[simp] theorem State.releaseOld_outArg1 (s : State) (o : Option Reservation) : (s.releaseOld o).outArg1 = s.outArg1 := by cases o <;> simp [State.releaseOld, State.sendRelease]
@[simp] theorem State.releaseOld_outPhase (s : State) (o : Option Reservation) : (s.releaseOld o).outPhase = s.outPhase := by cases o <;> simp [State.releaseOld, State.sendRelease]
@[simp] theorem State.releaseOld_outCode (s : State) (o : Option Reservation) : (s.releaseOld o).outCode = s.outCode := by cases o <;> simp [State.releaseOld, State.sendRelease]
@[simp] theorem State.releaseOld_outOvr (s : State) (o : Option Reservation) : (s.releaseOld o).outOvr = s.outOvr := by cases o <;> simp [State.releaseOld, State.sendRelease]
@[simp] theorem State.releaseOld_outErrcode (s : State) (o : Option Reservation) : (s.releaseOld o).outErrcode = s.outErrcode := by cases o <;> simp [State.releaseOld, State.sendRelease]
@[simp] theorem State.releaseOld_hw (s : State) (o : Option Reservation) : (s.releaseOld o).hw = s.hw := by cases o <;> simp [State.releaseOld, State.sendRelease]
@[simp] theorem State.releaseOld_slots (s : State) (o : Option Reservation) : (s.releaseOld o).slots = s.slots := by cases o <;> simp [State.releaseOld, State.sendRelease]
@[simp] theorem State.releaseOld_mem (s : State) (o : Option Reservation) : (s.releaseOld o).mem = s.mem := by cases o <;> simp [State.releaseOld, State.sendRelease]
@[simp] theorem State.releaseOld_outTouched (s : State) (o : Option Reservation) : (s.releaseOld o).outTouched = s.outTouched := by cases o <;> simp [State.releaseOld, State.sendRelease]
@[simp] theorem State.releaseOld_agenda (s : State) (o : Option Reservation) : (s.releaseOld o).agenda = s.agenda := by cases o <;> simp [State.releaseOld, State.sendRelease]
@[simp] theorem State.releaseOld_readData (s : State) (o : Option Reservation) : (s.releaseOld o).readData = s.readData := by cases o <;> simp [State.releaseOld, State.sendRelease]
@[simp] theorem State.releaseOld_portData (s : State) (o : Option Reservation) : (s.releaseOld o).portData = s.portData := by cases o <;> simp [State.releaseOld, State.sendRelease]
@[simp] theorem State.releaseOld_portLog (s : State) (o : Option Reservation) : (s.releaseOld o).portLog = s.portLog ++ o.toList.map (fun r => .release r.handle) := by cases o <;> simp [State.releaseOld, State.sendRelease]
@[simp] theorem State.releaseOld_reqCount (s : State) (o : Option Reservation) : (s.releaseOld o).reqCount = s.reqCount := by cases o <;> simp [State.releaseOld, State.sendRelease]
@[simp] theorem State.releaseOld_draws (s : State) (o : Option Reservation) : (s.releaseOld o).draws = s.draws := by cases o <;> simp [State.releaseOld, State.sendRelease]

/-! ### noteOutputWrite -/

@[simp] theorem State.noteOutputWrite_cfg (s : State) (r : Region) : (s.noteOutputWrite r).cfg = s.cfg := by unfold State.noteOutputWrite; split <;> rfl
@[simp] theorem State.noteOutputWrite_ctrlArg0 (s : State) (r : Region) : (s.noteOutputWrite r).ctrlArg0 = s.ctrlArg0 := by unfold State.noteOutputWrite; split <;> rfl
@[simp] theorem State.noteOutputWrite_ctrlArg1 (s : State) (r : Region) : (s.noteOutputWrite r).ctrlArg1 = s.ctrlArg1 := by unfold State.noteOutputWrite; split <;> rfl
@[simp] theorem State.noteOutputWrite_ctrlArg2 (s : State) (r : Region) : (s.noteOutputWrite r).ctrlArg2 = s.ctrlArg2 := by unfold State.noteOutputWrite; split <;> rfl
@[simp] theorem State.noteOutputWrite_ctrlLatch (s : State) (r : Region) : (s.noteOutputWrite r).ctrlLatch = s.ctrlLatch := by unfold State.noteOutputWrite; split <;> rfl
@[simp] theorem State.noteOutputWrite_ctrlCode (s : State) (r : Region) : (s.noteOutputWrite r).ctrlCode = s.ctrlCode := by unfold State.noteOutputWrite; split <;> rfl
@[simp] theorem State.noteOutputWrite_ctrlOvr (s : State) (r : Region) : (s.noteOutputWrite r).ctrlOvr = s.ctrlOvr := by unfold State.noteOutputWrite; split <;> rfl
@[simp] theorem State.noteOutputWrite_ctrlResult (s : State) (r : Region) : (s.noteOutputWrite r).ctrlResult = s.ctrlResult := by unfold State.noteOutputWrite; split <;> rfl
@[simp] theorem State.noteOutputWrite_masterVol (s : State) (r : Region) : (s.noteOutputWrite r).masterVol = s.masterVol := by unfold State.noteOutputWrite; split <;> rfl
@[simp] theorem State.noteOutputWrite_sampleCount (s : State) (r : Region) : (s.noteOutputWrite r).sampleCount = s.sampleCount := by unfold State.noteOutputWrite; split <;> rfl
@[simp] theorem State.noteOutputWrite_lockHeld (s : State) (r : Region) : (s.noteOutputWrite r).lockHeld = s.lockHeld := by unfold State.noteOutputWrite; split <;> rfl
@[simp] theorem State.noteOutputWrite_outArg0 (s : State) (r : Region) : (s.noteOutputWrite r).outArg0 = s.outArg0 := by unfold State.noteOutputWrite; split <;> rfl
@[simp] theorem State.noteOutputWrite_outArg1 (s : State) (r : Region) : (s.noteOutputWrite r).outArg1 = s.outArg1 := by unfold State.noteOutputWrite; split <;> rfl
@[simp] theorem State.noteOutputWrite_outPhase (s : State) (r : Region) : (s.noteOutputWrite r).outPhase = s.outPhase := by unfold State.noteOutputWrite; split <;> rfl
@[simp] theorem State.noteOutputWrite_outCode (s : State) (r : Region) : (s.noteOutputWrite r).outCode = s.outCode := by unfold State.noteOutputWrite; split <;> rfl
@[simp] theorem State.noteOutputWrite_outOvr (s : State) (r : Region) : (s.noteOutputWrite r).outOvr = s.outOvr := by unfold State.noteOutputWrite; split <;> rfl
@[simp] theorem State.noteOutputWrite_outErrcode (s : State) (r : Region) : (s.noteOutputWrite r).outErrcode = s.outErrcode := by unfold State.noteOutputWrite; split <;> rfl
@[simp] theorem State.noteOutputWrite_hw (s : State) (r : Region) : (s.noteOutputWrite r).hw = s.hw := by unfold State.noteOutputWrite; split <;> rfl
@[simp] theorem State.noteOutputWrite_slots (s : State) (r : Region) : (s.noteOutputWrite r).slots = s.slots := by unfold State.noteOutputWrite; split <;> rfl
@[simp] theorem State.noteOutputWrite_mem (s : State) (r : Region) : (s.noteOutputWrite r).mem = s.mem := by unfold State.noteOutputWrite; split <;> rfl
@[simp] theorem State.noteOutputWrite_agenda (s : State) (r : Region) : (s.noteOutputWrite r).agenda = s.agenda := by unfold State.noteOutputWrite; split <;> rfl
@[simp] theorem State.noteOutputWrite_readData (s : State) (r : Region) : (s.noteOutputWrite r).readData = s.readData := by unfold State.noteOutputWrite; split <;> rfl
@[simp] theorem State.noteOutputWrite_portData (s : State) (r : Region) : (s.noteOutputWrite r).portData = s.portData := by unfold State.noteOutputWrite; split <;> rfl
@[simp] theorem State.noteOutputWrite_portLog (s : State) (r : Region) : (s.noteOutputWrite r).portLog = s.portLog := by unfold State.noteOutputWrite; split <;> rfl
@[simp] theorem State.noteOutputWrite_reqCount (s : State) (r : Region) : (s.noteOutputWrite r).reqCount = s.reqCount := by unfold State.noteOutputWrite; split <;> rfl
@[simp] theorem State.noteOutputWrite_draws (s : State) (r : Region) : (s.noteOutputWrite r).draws = s.draws := by unfold State.noteOutputWrite; split <;> rfl

/-! ### exchangeHw -/

@[simp] theorem State.exchangeHw_fst (s : State) (n : Option Reservation) : (s.exchangeHw n).1 = s.hw := rfl
@[simp] theorem State.exchangeHw_snd (s : State) (n : Option Reservation) :
    (s.exchangeHw n).2 = { s with hw := n } := rfl

/-! ### slots -/

@[simp] theorem State.slot_setSlot_same (s : State) (c : Fin 8) (sl : Slot) : (s.setSlot c sl).slot c = sl := by
  simp [State.slot]

theorem State.slot_setSlot_other (s : State) {c d : Fin 8} (sl : Slot) (h : c ≠ d) :
    (s.setSlot c sl).slot d = s.slot d := by
  simp only [State.slot, State.setSlot, Fin.getElem_fin]
  exact Vector.getElem_set_ne _ _ (fun e => h (Fin.ext e))

theorem State.slot_setSlot (s : State) (c d : Fin 8) (sl : Slot) :
    (s.setSlot c sl).slot d = if c = d then sl else s.slot d := by
  split
  · next h => subst h; simp
  · next h => exact s.slot_setSlot_other sl h

/-- Two states with the same slots have the same slot `c`. -/
theorem State.slot_congr {s t : State} (h : t.slots = s.slots) (c : Fin 8) : t.slot c = s.slot c := by
  simp [State.slot, h]

/-- A slot of a state whose slots are all mapped. -/
theorem State.slot_map (s : State) (f : Slot → Slot) (c : Fin 8) :
    ({ s with slots := s.slots.map f } : State).slot c = f (s.slot c) := by
  simp [State.slot]

theorem mem_allSlots (c : Fin 8) : c ∈ allSlots := by
  revert c; decide

/-- After reset every slot is FREE_SLOT. -/
@[simp] theorem State.atReset_slot (cfg : Config) (c : Fin 8) : (State.atReset cfg).slot c = Slot.freeSlot := by
  simp [State.slot, State.atReset]

end Sys2Proof.Machine
end

