-- ==== Sys2Proof/Laws/Memory.lean ====
section
/-! SUPPORT. Bus memory: what is read after a write, and that every operation keeps the canonical
form. -/

namespace Sys2Proof.Machine

@[simp] theorem Memory.read_nil (x : Nat) : Memory.read [] x = unlistedByte := rfl

theorem Memory.read_cell (a : Nat) (b : Byte) (m : Memory) (x : Nat) :
    Memory.read ((a, b) :: m) x = if a = x then b else Memory.read m x := rfl

theorem Memory.wf_cell (a : Nat) (b : Byte) (m : Memory) :
    Memory.wf ((a, b) :: m) = true ↔
      a < addrSpace ∧ b ≠ unlistedByte ∧ (∀ c ∈ m, a < c.1) ∧ Memory.wf m = true := by
  simp [Memory.wf, and_assoc]

/-- An address below every listed one is unlisted. -/
theorem Memory.read_below {m : Memory} {x : Nat} (h : ∀ c ∈ m, x < c.1) : Memory.read m x = unlistedByte := by
  induction m with
  | nil => rfl
  | cons c m ih =>
    obtain ⟨a, b⟩ := c
    have ha : x < a := h (a, b) (by simp)
    rw [Memory.read_cell, if_neg (by omega)]
    exact ih (fun c hc => h c (by simp [hc]))

theorem Memory.read_cons_same (x : Nat) (v : Byte) (m : Memory) (h : ∀ c ∈ m, x < c.1) :
    (Memory.cons x v m).read x = v := by
  unfold Memory.cons
  split
  · next hv => rw [Memory.read_below h, hv]
  · simp [Memory.read_cell]

theorem Memory.read_cons_other (x y : Nat) (v : Byte) (m : Memory) (h : x ≠ y) :
    (Memory.cons x v m).read y = Memory.read m y := by
  unfold Memory.cons
  split
  · rfl
  · rw [Memory.read_cell, if_neg h]

/-- The frame of a byte write: every other address reads as before. -/
theorem Memory.read_write_other (m : Memory) (x y : Nat) (v : Byte) (h : x ≠ y) :
    (m.write x v).read y = m.read y := by
  induction m with
  | nil => exact Memory.read_cons_other x y v [] h
  | cons c m ih =>
    obtain ⟨a, b⟩ := c
    simp only [Memory.write]
    split
    · exact Memory.read_cons_other x y v _ h
    · split
      · next hxa => rw [Memory.read_cons_other x y v m h, Memory.read_cell, if_neg (hxa ▸ h)]
      · rw [Memory.read_cell, Memory.read_cell, ih]

/-- A byte write is read back. -/
theorem Memory.read_write_same {m : Memory} (x : Nat) (v : Byte) (hm : m.wf = true) :
    (m.write x v).read x = v := by
  induction m with
  | nil => exact Memory.read_cons_same x v [] (by simp)
  | cons c m ih =>
    obtain ⟨a, b⟩ := c
    obtain ⟨_, _, hlt, hm'⟩ := (Memory.wf_cell a b m).mp hm
    simp only [Memory.write]
    split
    · next hxa =>
      exact Memory.read_cons_same x v _ fun c hc => by
        rcases List.mem_cons.mp hc with rfl | hc
        · exact hxa
        · exact Nat.lt_trans hxa (hlt c hc)
    · split
      · next hxa => exact Memory.read_cons_same x v m (fun c hc => hxa ▸ hlt c hc)
      · next hne => rw [Memory.read_cell, if_neg (Ne.symm hne), ih hm']

theorem Memory.read_write {m : Memory} (x y : Nat) (v : Byte) (hm : m.wf = true) :
    (m.write x v).read y = if x = y then v else m.read y := by
  split
  · next h => subst h; exact Memory.read_write_same x v hm
  · next h => exact Memory.read_write_other m x y v h

/-- What a write lists: the address written, or what was listed before. -/
theorem Memory.mem_write {m : Memory} {x : Nat} {v : Byte} {c : Host.Cell} (h : c ∈ m.write x v) :
    c.1 = x ∨ c ∈ m := by
  induction m with
  | nil =>
    simp only [Memory.write, Memory.cons] at h
    split at h <;> simp_all
  | cons d m ih =>
    obtain ⟨a, b⟩ := d
    simp only [Memory.write, Memory.cons] at h
    split at h
    · split at h <;> simp_all
      rcases h with rfl | h | h <;> simp_all
    · split at h
      · split at h <;> simp_all
        rcases h with rfl | h <;> simp_all
      · rcases List.mem_cons.mp h with rfl | h
        · simp
        · rcases ih h with h | h <;> simp_all

theorem Memory.wf_cons {x : Nat} {v : Byte} {m : Memory} (hx : x < addrSpace) (hm : m.wf = true)
    (h : ∀ c ∈ m, x < c.1) : Memory.wf (Memory.cons x v m) = true := by
  unfold Memory.cons
  split
  · exact hm
  · next hv => exact (Memory.wf_cell x v m).mpr ⟨hx, hv, h, hm⟩

/-- A write keeps the canonical form. -/
theorem Memory.wf_write {m : Memory} {x : Nat} (v : Byte) (hx : x < addrSpace) (hm : m.wf = true) :
    (m.write x v).wf = true := by
  induction m with
  | nil => exact Memory.wf_cons hx rfl (by simp)
  | cons c m ih =>
    obtain ⟨a, b⟩ := c
    obtain ⟨ha, hb, hlt, hm'⟩ := (Memory.wf_cell a b m).mp hm
    simp only [Memory.write]
    split
    · next hxa =>
      exact Memory.wf_cons hx hm fun c hc => by
        rcases List.mem_cons.mp hc with rfl | hc
        · exact hxa
        · exact Nat.lt_trans hxa (hlt c hc)
    · split
      · next hxa => exact Memory.wf_cons hx hm' (fun c hc => hxa ▸ hlt c hc)
      · next h1 h2 =>
        refine (Memory.wf_cell a b _).mpr ⟨ha, hb, fun c hc => ?_, ih hm'⟩
        rcases Memory.mem_write hc with h | h
        · omega
        · exact hlt c h

theorem wrapAddr_lt (a : Nat) : wrapAddr a < addrSpace := Nat.mod_lt _ (by decide)

theorem Memory.wf_storeBytes {m : Memory} (a : Nat) (bs : List Byte) (hm : m.wf = true) :
    (m.storeBytes a bs).wf = true := by
  induction bs generalizing m a with
  | nil => exact hm
  | cons b bs ih => exact ih (a + 1) (Memory.wf_write b (wrapAddr_lt a) hm)

theorem Memory.read_storeBytes_other {m : Memory} (a x : Nat) (bs : List Byte)
    (h : ∀ j < bs.length, wrapAddr (a + j) ≠ x) : (m.storeBytes a bs).read x = m.read x := by
  induction bs generalizing m a with
  | nil => rfl
  | cons b bs ih =>
    simp only [Memory.storeBytes]
    rw [ih (a + 1) (fun j hj => by
      have := h (j + 1) (by simp; omega)
      rwa [show a + (j + 1) = a + 1 + j by omega] at this)]
    exact Memory.read_write_other m _ x b (h 0 (by simp))

theorem littleBytes_length (v n : Nat) : (littleBytes v n).length = n := by
  induction n generalizing v with
  | zero => rfl
  | succ n ih => simp [littleBytes, ih]

theorem disassemble_length (e : Endian) (n v : Nat) : (disassemble e n v).length = n := by
  cases e <;> simp [disassemble, littleBytes_length]

theorem Memory.wf_memWrite {m : Memory} (e : Endian) (a n v : Nat) (hm : m.wf = true) :
    (memWrite e m a n v).wf = true := Memory.wf_storeBytes a _ hm

theorem read_memWrite_other {m : Memory} (e : Endian) (a n v x : Nat)
    (h : ∀ j < n, wrapAddr (a + j) ≠ x) : (memWrite e m a n v).read x = m.read x :=
  Memory.read_storeBytes_other a x _ (by rwa [disassemble_length])

theorem littleValue_littleBytes (v n : Nat) : littleValue (littleBytes v n) = v % 256 ^ n := by
  induction n generalizing v with
  | zero => simp [littleBytes, littleValue, Nat.mod_one]
  | succ n ih =>
    simp only [littleBytes, littleValue, ih, BitVec.toNat_ofNat]
    rw [show (256 : Nat) ^ (n + 1) = 256 * 256 ^ n by rw [Nat.pow_succ, Nat.mul_comm], Nat.mod_mul]

/-- A value taken apart and assembled again, in either byte order. -/
theorem assemble_disassemble (e : Endian) (n v : Nat) : assemble e (disassemble e n v) = v % 256 ^ n := by
  cases e <;> simp [assemble, disassemble, littleValue_littleBytes]

/-- The two bytes of a 16-bit store are read back at its two addresses. -/
theorem Memory.read_storeBytes_two {m : Memory} (a : Nat) (b0 b1 : Byte) (hm : m.wf = true) :
    (m.storeBytes a [b0, b1]).read (wrapAddr a) = b0 ∧
      (m.storeBytes a [b0, b1]).read (wrapAddr (a + 1)) = b1 := by
  have hne : wrapAddr (a + 1) ≠ wrapAddr a := by
    simp only [wrapAddr, addrSpace]
    omega
  simp only [Memory.storeBytes]
  refine ⟨?_, Memory.read_write_same _ _ (Memory.wf_write _ (wrapAddr_lt a) hm)⟩
  rw [Memory.read_write_other _ _ _ _ hne, Memory.read_write_same _ _ hm]

/-- A 16-bit store is read back. -/
theorem memRead_memWrite_two {m : Memory} (e : Endian) (a v : Nat) (hm : m.wf = true) :
    memRead e (memWrite e m a 2 v) a 2 = v % 2 ^ 16 := by
  have key : ∀ bs : List Byte, bs.length = 2 → (m.storeBytes a bs).bytesAt a 2 = bs := by
    intro bs hbs
    match bs, hbs with
    | [b0, b1], _ =>
      obtain ⟨h0, h1⟩ := Memory.read_storeBytes_two a b0 b1 hm
      simp only [Memory.bytesAt, h0, h1]
  unfold memRead memWrite
  rw [key _ (disassemble_length e 2 v), assemble_disassemble, show (256 : Nat) ^ 2 = 2 ^ 16 by decide]

theorem Memory.bytesAt_congr {m m' : Memory} (a n : Nat)
    (h : ∀ j < n, m.read (wrapAddr (a + j)) = m'.read (wrapAddr (a + j))) : m.bytesAt a n = m'.bytesAt a n := by
  induction n generalizing a with
  | zero => rfl
  | succ n ih =>
    simp only [Memory.bytesAt]
    rw [ih (a + 1) (fun j hj => by
      have := h (j + 1) (by omega)
      rwa [show a + (j + 1) = a + 1 + j by omega] at this)]
    exact congrArg (· :: _) (by simpa using h 0 (by omega))

theorem memRead_congr {m m' : Memory} (e : Endian) (a n : Nat)
    (h : ∀ j < n, m.read (wrapAddr (a + j)) = m'.read (wrapAddr (a + j))) : memRead e m a n = memRead e m' a n := by
  unfold memRead
  rw [Memory.bytesAt_congr a n h]

/-! ### The output write of a pass -/

theorem wf_writeFrames {m : Memory} (e : Endian) (o : Nat) (fs : List AccFrame) (hm : m.wf = true) :
    (writeFrames e m o fs).wf = true := by
  induction fs generalizing m o with
  | nil => exact hm
  | cons f fs ih =>
    exact ih (o + 4) (Memory.wf_memWrite e _ _ _ (Memory.wf_memWrite e _ _ _ hm))

/-- The frame of the output write: an address outside the region reads as before. -/
theorem read_writeFrames_other {m : Memory} (e : Endian) (o x : Nat) (fs : List AccFrame)
    (h : ∀ j < 4 * fs.length, wrapAddr (o + j) ≠ x) : (writeFrames e m o fs).read x = m.read x := by
  induction fs generalizing m o with
  | nil => rfl
  | cons f fs ih =>
    simp only [writeFrames]
    have hl : (f :: fs).length = fs.length + 1 := rfl
    rw [ih (o + 4) (fun j hj => by
        have := h (j + 4) (by omega)
        rwa [show o + (j + 4) = o + 4 + j by omega] at this),
      read_memWrite_other e _ _ _ _ (fun j hj => by
        have := h (j + 2) (by omega)
        rwa [show o + (j + 2) = o + 2 + j by omega] at this),
      read_memWrite_other e _ _ _ _ (fun j hj => h j (by omega))]

end Sys2Proof.Machine
end

