-- ==== Sys2Proof/Laws/Arith.lean ====
section
/-! SUPPORT. The arithmetic primitives: ranges, and values read back. -/

namespace Sys2Proof.Machine

theorem clamp_ge {x lo hi : Int} (h : lo ≤ hi) : lo ≤ clamp x lo hi := by
  unfold clamp; split <;> [omega; (split <;> omega)]

theorem clamp_le {x lo hi : Int} (h : lo ≤ hi) : clamp x lo hi ≤ hi := by
  unfold clamp; split <;> [omega; (split <;> omega)]

theorem clamp_of_mem {x lo hi : Int} (h1 : lo ≤ x) (h2 : x ≤ hi) : clamp x lo hi = x := by
  unfold clamp; rw [if_neg (by omega), if_neg (by omega)]

theorem sat16_ge (x : Int) : -32768 ≤ sat16 x := clamp_ge (by decide)

theorem sat16_le (x : Int) : sat16 x ≤ 32767 := clamp_le (by decide)

theorem sat16_of_mem {x : Int} (h1 : -32768 ≤ x) (h2 : x ≤ 32767) : sat16 x = x := clamp_of_mem h1 h2

theorem roundup64_eq (n : Nat) : roundup64 n = (n + 63) / 64 * 64 := rfl

theorem roundup64_dvd (n : Nat) : roundup64 n % sampleGranule = 0 := by
  simp [roundup64, sampleGranule]

/-- The value SAMPLE_COUNT takes. -/
theorem sampleCountFor_toNat (cfg : Config) (r : Nat) :
    (sampleCountFor cfg r).toNat = min (roundup64 r) cfg.maxSampleCount.toNat := by
  have h := cfg.maxSampleCount.isLt
  simp only [sampleCountFor, BitVec.toNat_ofNat]
  exact Nat.mod_eq_of_lt (by omega)

theorem sampleCountFor_le (cfg : Config) (r : Nat) :
    (sampleCountFor cfg r).toNat ≤ cfg.maxSampleCount.toNat := by
  rw [sampleCountFor_toNat]; omega

theorem sampleCountFor_dvd {cfg : Config} (r : Nat) (h : cfg.wf = true) :
    (sampleCountFor cfg r).toNat % sampleGranule = 0 := by
  have hw : cfg.maxSampleCount.toNat % sampleGranule = 0 := by
    simp [Config.wf] at h
    exact h.2
  rw [sampleCountFor_toNat]
  rcases Nat.le_total (roundup64 r) cfg.maxSampleCount.toNat with h | h
  · rw [Nat.min_eq_left h]; exact roundup64_dvd r
  · rw [Nat.min_eq_right h]; exact hw

/-- A small non-negative integer stored in a word is read back. -/
theorem toNat_ofInt_word {x : Int} (h0 : 0 ≤ x) (h1 : x < 2 ^ 32) :
    ((BitVec.ofInt 32 x).toNat : Int) = x := by
  rw [BitVec.toNat_ofInt]
  omega

/-- A signed 32-bit integer stored in a word is read back. -/
theorem toInt_ofInt_word {x : Int} (h0 : -2 ^ 31 ≤ x) (h1 : x < 2 ^ 31) : (BitVec.ofInt 32 x).toInt = x := by
  rw [BitVec.toInt_ofInt]
  simp only [Int.bmod]
  omega

/-- MASTER_VOL takes the clamped signed word (R125). -/
theorem masterVolIn_toNat (w : Word) : ((masterVolIn w).toNat : Int) = clamp w.toInt 0 unity := by
  have h0 : 0 ≤ clamp w.toInt 0 unity := clamp_ge (by decide)
  have h1 : clamp w.toInt 0 unity ≤ unity := clamp_le (by decide)
  exact toNat_ofInt_word h0 (Int.lt_of_le_of_lt h1 (by decide))

theorem masterVolIn_le (w : Word) : (masterVolIn w).toNat ≤ unity := by
  have h := masterVolIn_toNat w
  have h1 : clamp w.toInt 0 unity ≤ unity := clamp_le (by decide)
  omega

/-- Without clamping a volume is stored as it is given (R157). -/
theorem volIn_unclamped {cfg : Config} (h : cfg.clampChannelVolume = false) (w : Word) : volIn cfg w.toInt = w := by
  simp [volIn, h]

theorem quot_zero (r : Rounding) (b : Int) : quot r 0 b = 0 := by cases r <;> simp [quot]

/-- A product is divided exactly by its factor, under either rounding. -/
theorem quot_mul_cancel (r : Rounding) (a : Int) {b : Int} (h : b ≠ 0) : quot r (a * b) b = a := by
  cases r
  · simp [quot, Int.mul_tdiv_cancel a h]
  · simp [quot, Int.mul_fdiv_cancel a h]

/-- A quotient is no larger in size than its dividend. -/
theorem quot_bounds (r : Rounding) {a b m : Int} (hb : 0 < b) (h0 : -(m * b) ≤ a) (h1 : a ≤ m * b) :
    -m ≤ quot r a b ∧ quot r a b ≤ m := by
  cases r
  · simp only [quot]
    constructor
    · rcases Int.le_total 0 a with ha | ha
      · have := Int.tdiv_nonneg ha (Int.le_of_lt hb)
        have : 0 ≤ m := by
          by_contra hm
          have : m * b < 0 := Int.mul_neg_of_neg_of_pos (by omega) hb
          omega
        omega
      · have h2 : (-a).tdiv b ≤ m := by
          rw [Int.tdiv_eq_ediv_of_nonneg (by omega)]
          exact Int.ediv_le_of_le_mul hb (by omega)
        rw [Int.neg_tdiv] at h2
        omega
    · rcases Int.le_total 0 a with ha | ha
      · rw [Int.tdiv_eq_ediv_of_nonneg ha]
        exact Int.ediv_le_of_le_mul hb h1
      · have h2 : 0 ≤ (-a).tdiv b := Int.tdiv_nonneg (by omega) (Int.le_of_lt hb)
        rw [Int.neg_tdiv] at h2
        have : 0 ≤ m := by
          by_contra hm
          have : m * b < 0 := Int.mul_neg_of_neg_of_pos (by omega) hb
          omega
        omega
  · simp only [quot]
    rw [Int.fdiv_eq_ediv_of_nonneg a (Int.le_of_lt hb)]
    exact ⟨Int.le_ediv_of_mul_le hb (by rw [Int.neg_mul]; exact h0), Int.ediv_le_of_le_mul hb h1⟩

/-- Every fade step lies in [-FADE_FULL, FADE_FULL] (R37). -/
theorem quot_fadeFull_bounds (r : Rounding) {n : Nat} (h : n ≠ 0) :
    (-(fadeFull : Int) ≤ quot r (-fadeFull) n ∧ quot r (-fadeFull) n ≤ fadeFull) ∧
      0 ≤ quot r fadeFull n ∧ quot r fadeFull n ≤ fadeFull := by
  have hn : (0 : Int) < n := by omega
  have h1 : (fadeFull : Int) ≤ fadeFull * n := by
    simp only [fadeFull]
    omega
  refine ⟨quot_bounds r hn (by omega) (by omega), ?_, (quot_bounds r hn (by omega) h1).2⟩
  cases r <;> simp only [quot]
  · exact Int.tdiv_nonneg (Int.natCast_nonneg _) (Int.natCast_nonneg _)
  · exact Int.fdiv_nonneg (Int.natCast_nonneg _) (Int.natCast_nonneg _)

end Sys2Proof.Machine
end

