-- ==== Sys2Proof/Laws/Channel.lean ====
section
/-! SUPPORT. The channel commands: every way the shared operation can end, and what ALLOC picks. -/

namespace Sys2Proof.Machine

/-- Every way a channel command can end (R150). -/
theorem channelCommand_cases (rejectFree : Bool) (h : BitVec 8) (s : State) (f : Slot → Slot) :
    (∃ hh : h.toNat < 8, ¬(rejectFree = true ∧ (s.slot ⟨h.toNat, hh⟩).state = .free) ∧
      channelCommand rejectFree h s f =
        .next ((s.setSlot ⟨h.toNat, hh⟩ (f (s.slot ⟨h.toNat, hh⟩))).completeCtrl .ok)) ∨
    ((8 ≤ h.toNat ∨ ∃ hh : h.toNat < 8, rejectFree = true ∧ (s.slot ⟨h.toNat, hh⟩).state = .free) ∧
      channelCommand rejectFree h s f = .next (s.completeCtrl .invalidChannel)) := by
  unfold channelCommand
  by_cases hh : h.toNat < 8
  · rw [dif_pos hh]
    by_cases hf : rejectFree = true ∧ (s.slot ⟨h.toNat, hh⟩).state = .free
    · right
      refine ⟨.inr ⟨hh, hf⟩, ?_⟩
      simp [hf.1, hf.2, ctrlFail]
    · left
      refine ⟨hh, hf, ?_⟩
      have : (rejectFree && (s.slot ⟨h.toNat, hh⟩).state == .free) = false := by
        cases rejectFree <;> simp_all
      simp only [this, Bool.false_eq_true, ↓reduceIte, ctrlDone]
  · rw [dif_neg hh]
    exact .inr ⟨.inl (by omega), rfl⟩

/-- A channel command that passes its checks. -/
theorem channelCommand_done {rejectFree : Bool} {h : BitVec 8} {s : State} {f : Slot → Slot} (hh : h.toNat < 8)
    (hf : rejectFree = true → (s.slot ⟨h.toNat, hh⟩).state ≠ .free) :
    channelCommand rejectFree h s f =
      .next ((s.setSlot ⟨h.toNat, hh⟩ (f (s.slot ⟨h.toNat, hh⟩))).completeCtrl .ok) := by
  rcases channelCommand_cases rejectFree h s f with ⟨_, _, e⟩ | ⟨h1 | ⟨h2, h3, h4⟩, _⟩
  · exact e
  · omega
  · exact absurd h4 (hf h3)

/-- The first hit in a rising list is its least one. -/
theorem find_rising {p : Fin 8 → Bool} {c : Fin 8} {l : List (Fin 8)} (hl : l.Pairwise (· < ·)) :
    l.find? p = some c ↔ c ∈ l ∧ p c = true ∧ ∀ d ∈ l, d < c → p d = false := by
  induction l with
  | nil => simp
  | cons a l ih =>
    obtain ⟨hlt, hl⟩ := List.pairwise_cons.mp hl
    cases ha : p a with
    | true =>
      rw [List.find?_cons_of_pos ha]
      constructor
      · rintro h
        obtain rfl := Option.some.inj h
        refine ⟨List.mem_cons_self, ha, fun d hd hda => ?_⟩
        rcases List.mem_cons.mp hd with rfl | hd
        · exact absurd hda (Fin.lt_irrefl _)
        · exact absurd (Fin.lt_trans hda (hlt d hd)) (Fin.lt_irrefl _)
      · rintro ⟨hc, _, hmin⟩
        rcases List.mem_cons.mp hc with rfl | hc
        · rfl
        · simp [ha] at hmin
          exact absurd (hlt c hc) (Fin.not_lt.mpr hmin.1)
    | false =>
      rw [List.find?_cons_of_neg (by simp [ha]), ih hl]
      constructor
      · rintro ⟨hc, hp, hmin⟩
        refine ⟨List.mem_cons_of_mem _ hc, hp, fun d hd hdc => ?_⟩
        rcases List.mem_cons.mp hd with rfl | hd
        · exact ha
        · exact hmin d hd hdc
      · rintro ⟨hc, hp, hmin⟩
        rcases List.mem_cons.mp hc with rfl | hc
        · simp [ha] at hp
        · exact ⟨hc, hp, fun d hd => hmin d (List.mem_cons_of_mem _ hd)⟩

/-- ALLOC picks a slot exactly if it is Free and every lower one is not (R151). -/
theorem firstFree_eq_some {s : State} {c : Fin 8} :
    s.firstFree = some c ↔ (s.slot c).state = .free ∧ ∀ d < c, (s.slot d).state ≠ .free := by
  rw [State.firstFree, find_rising (by decide)]
  simp [mem_allSlots]

/-- ALLOC finds nothing exactly if no slot is Free (R151). -/
theorem firstFree_eq_none {s : State} : s.firstFree = none ↔ ∀ c, (s.slot c).state ≠ .free := by
  simp only [State.firstFree, List.find?_eq_none]
  exact ⟨fun h c => by simpa using h c (mem_allSlots c), fun h c _ => by simpa using h c⟩

end Sys2Proof.Machine
end

