-- ==== Sys2Proof/Laws/Mixing.lean ====
section
/-! SUPPORT. The mixing pass: what a turn does to a slot, and that a pass changes slots and the draw
counter only. -/

namespace Sys2Proof.Machine

/-- The slot after `n` output frames of its turn: the cursor alone (R183). -/
def cursorLoop (gap : Bool) : Slot → Nat → Slot
  | sl, 0 => sl
  | sl, n + 1 =>
    if sl.bufLen.toNat ≤ sl.position.toNat then
      if sl.looping then
        if gap then cursorLoop gap { sl with position := 0 } n
        else cursorLoop gap { sl with position := 0 + 1 } n
      else { sl with state := .idle }
    else cursorLoop gap { sl with position := sl.position + 1 } n

/-- The frame loop moves the slot as the cursor alone does, whatever is read. -/
theorem frameLoop_slot (s : State) (g : Int) (sl : Slot) (d : Nat) (fs : List AccFrame) :
    (frameLoop s g sl d fs).slot = cursorLoop s.cfg.loopWrapGap sl fs.length := by
  induction fs generalizing sl d with
  | nil => rfl
  | cons f fs ih =>
    simp only [frameLoop, List.length_cons, cursorLoop]
    split
    · split
      · split <;> simp only [ih, playFrame]
      · rfl
    · simp only [ih, playFrame]

/-- The frame loop keeps the number of output frames. -/
theorem frameLoop_length (s : State) (g : Int) (sl : Slot) (d : Nat) (fs : List AccFrame) :
    (frameLoop s g sl d fs).acc.length = fs.length := by
  induction fs generalizing sl d with
  | nil => rfl
  | cons f fs ih =>
    simp only [frameLoop]
    split
    · split
      · split <;> simp [ih]
      · rfl
    · simp [ih]

/-- All a turn's cursor can do: the position stays in the buffer, the state stays or becomes Idle, and
nothing else of the slot changes. -/
theorem cursorLoop_cases (gap : Bool) (sl : Slot) (n : Nat) (hne : sl.bufLen.toNat ≠ 0) :
    ∃ (p : Word) (st : SlotState), cursorLoop gap sl n = { sl with position := p, state := st } ∧
      (st = sl.state ∨ st = .idle) ∧ (sl.position.toNat ≤ sl.bufLen.toNat → p.toNat ≤ sl.bufLen.toNat) := by
  induction n generalizing sl with
  | zero => exact ⟨sl.position, sl.state, rfl, .inl rfl, id⟩
  | succ n ih =>
    have hlen := sl.bufLen.isLt
    simp only [cursorLoop]
    split
    · next hend =>
      split
      · split
        · obtain ⟨p, st, e, hst, hp⟩ := ih { sl with position := 0 } hne
          exact ⟨p, st, e, hst, fun _ => hp (by simp)⟩
        · obtain ⟨p, st, e, hst, hp⟩ := ih { sl with position := 0 + 1 } hne
          exact ⟨p, st, e, hst, fun _ => hp (by simp; omega)⟩
      · exact ⟨sl.position, .idle, rfl, .inr rfl, id⟩
    · next hlt =>
      obtain ⟨p, st, e, hst, hp⟩ := ih { sl with position := sl.position + 1 } hne
      refine ⟨p, st, e, hst, fun _ => hp ?_⟩
      have : (sl.position + 1).toNat = (sl.position.toNat + 1) % 2 ^ 32 := BitVec.toNat_add ..
      show (sl.position + 1).toNat ≤ sl.bufLen.toNat
      omega

/-- A slot after a pass of `n` frames: its turn (R181, R182, R188), without what it adds. -/
def mixedSlot (gap : Bool) (n : Nat) (sl : Slot) : Slot :=
  if !sl.active then sl
  else if sl.bufLen.toNat = 0 then { sl with state := .idle }
  else fadeUpdate (cursorLoop gap sl n)

/-- All a turn does to the machine: its own slot, and the draw counter. -/
theorem mixSlot_cases (p : State × List AccFrame) (c : Fin 8) :
    ∃ d acc, mixSlot p c =
        ({ p.1.setSlot c (mixedSlot p.1.cfg.loopWrapGap p.2.length (p.1.slot c)) with draws := d }, acc) ∧
      acc.length = p.2.length := by
  unfold mixSlot mixedSlot
  simp only
  split
  · refine ⟨p.1.draws, p.2, ?_, rfl⟩
    have : p.1.setSlot c (p.1.slot c) = p.1 := by
      simp [State.setSlot, State.slot]
    rw [this]
  · split
    · exact ⟨p.1.draws, p.2, rfl, rfl⟩
    · exact ⟨_, _, by rw [frameLoop_slot], frameLoop_length ..⟩

/-- Turns of different slots do not meet: a list of them. -/
theorem foldl_mixSlot (cs : List (Fin 8)) (p : State × List AccFrame) (h : cs.Nodup) :
    ∃ v d, (cs.foldl mixSlot p).1 = { p.1 with slots := v, draws := d } ∧
      (cs.foldl mixSlot p).2.length = p.2.length ∧
      ∀ c : Fin 8, v[c] =
        if c ∈ cs then mixedSlot p.1.cfg.loopWrapGap p.2.length (p.1.slot c) else p.1.slot c := by
  induction cs generalizing p with
  | nil => exact ⟨p.1.slots, p.1.draws, rfl, rfl, fun c => by simp [State.slot]⟩
  | cons a cs ih =>
    obtain ⟨ha, hcs⟩ := List.nodup_cons.mp h
    obtain ⟨d1, acc1, e1, hl1⟩ := mixSlot_cases p a
    obtain ⟨v, d, e, hl, hv⟩ := ih (mixSlot p a) hcs
    rw [e1] at e hl hv
    refine ⟨v, d, ?_, ?_, fun c => ?_⟩
    · simp only [List.foldl_cons, e1, e]
      rfl
    · simp only [List.foldl_cons, e1, hl, hl1]
    · rw [hv c]
      show (if c ∈ cs then mixedSlot p.1.cfg.loopWrapGap acc1.length
          ((p.1.setSlot a (mixedSlot p.1.cfg.loopWrapGap p.2.length (p.1.slot a))).slot c)
        else (p.1.setSlot a (mixedSlot p.1.cfg.loopWrapGap p.2.length (p.1.slot a))).slot c) = _
      rw [State.slot_setSlot, hl1]
      by_cases hac : a = c
      · subst hac
        simp [ha]
      · simp [hac, Ne.symm hac]

/-- A pass changes the slots, each by its own turn, and the draw counter, and nothing else. -/
theorem mixPass_cases (s : State) :
    ∃ v d, (mixPass s).1 = { s with slots := v, draws := d } ∧
      (mixPass s).2.length = s.sampleCount.toNat ∧
      ∀ c : Fin 8, v[c] = mixedSlot s.cfg.loopWrapGap s.sampleCount.toNat (s.slot c) := by
  obtain ⟨v, d, e, hl, hv⟩ :=
    foldl_mixSlot allSlots (s, List.replicate s.sampleCount.toNat (0, 0)) (by decide)
  refine ⟨v, d, e, by simpa [mixPass] using hl, fun c => ?_⟩
  rw [hv c]
  simp [mem_allSlots]

/-- All MIX does (R181): the slots, the draw counter, the output region, and the end of the command. -/
theorem execMix_cases (ch : BitVec 8) (s : State) :
    ∃ v d fs, execMix ch s = .next
        (({ s with slots := v, draws := d,
                   mem := writeFrames s.cfg.sampleEndian s.mem s.argBase.toNat fs } : State).noteOutputWrite
          s.mixRegion |>.completeCtrl .ok) ∧
      fs = (mixPass s).2 ∧ fs.length = s.sampleCount.toNat ∧
      ∀ c : Fin 8, v[c] = mixedSlot s.cfg.loopWrapGap s.sampleCount.toNat (s.slot c) := by
  obtain ⟨v, d, e, hl, hv⟩ := mixPass_cases s
  refine ⟨v, d, (mixPass s).2, ?_, rfl, hl, hv⟩
  simp only [execMix, ctrlDone, e]

/-- What the fade update leaves (R188). -/
theorem fadeUpdate_cases (sl : Slot) :
    ∃ (st : SlotState) (step : Word), fadeUpdate sl =
        { sl with fadeLevel := BitVec.ofInt 32 (nextLevel sl), state := st, fadeStep := step } ∧
      ((st = .idle ∧ sl.state = .fadingOut ∧ nextLevel sl = 0) ∨ st = sl.state) ∧
      (step = sl.fadeStep ∨ (step = 0 ∧ 0 < sl.fadeStep.toInt ∧ nextLevel sl = fadeFull)) := by
  unfold fadeUpdate
  simp only
  split
  · next h => exact ⟨.idle, sl.fadeStep, rfl, .inl ⟨rfl, h⟩, .inl rfl⟩
  · split
    · next h => exact ⟨sl.state, 0, rfl, .inr rfl, .inr ⟨rfl, h⟩⟩
    · exact ⟨sl.state, sl.fadeStep, rfl, .inr rfl, .inl rfl⟩

/-- The level after a pass is in range (R188). -/
theorem nextLevel_range (sl : Slot) : 0 ≤ nextLevel sl ∧ nextLevel sl ≤ fadeFull :=
  ⟨clamp_ge (Int.natCast_nonneg _), clamp_le (Int.natCast_nonneg _)⟩

end Sys2Proof.Machine
end

