-- ==== Sys2Proof/Laws/Step.lean ====
section
/-! SUPPORT. What a step is for each kind of event, what a Port read does, and that the numbers of requests
only grow. -/

namespace Sys2Proof.Machine

/-- With an event left, a step is that event's. -/
theorem step_event {s : State} {e : Event} {rest : List Event} (h : s.agenda = e :: rest) :
    step s = runEvent e { s with agenda := rest } := by
  simp only [step, h]

/-- With no event left, a step is the engines' own. -/
theorem step_idle {s : State} (h : s.agenda = []) : step s = idleStep s := by
  simp only [step, h]

theorem execRaw_ok {r : Raw} {i : Instr} (h : decode r = .ok i) (s : State) : execRaw r s = exec i s := by
  simp only [execRaw, h]

theorem execRaw_error {r : Raw} {e : DecodeError} (h : decode r = .error e) (s : State) :
    execRaw r s = .fault (decodeFault e) := by
  simp only [execRaw, h]

theorem ctrlStep_full {s : State} {w : Word} (h : s.ctrlLatch = some w) : ctrlStep s = exec (decodeCtrl w) s := by
  simp only [ctrlStep, h, execRaw, decode]

theorem ctrlStep_empty {s : State} (h : s.ctrlLatch = none) : ctrlStep s = .next s := by
  simp only [ctrlStep, h]

theorem outStep_pending {s : State} {w : Word} (h : s.outPhase = .pending w) :
    outStep s = exec (decodeOut w) s := by
  simp only [outStep, h, execRaw, decode]

theorem outStep_other {s : State} (h : s.outPending = false) : outStep s = .next s := by
  unfold State.outPending at h
  unfold outStep
  split at h
  · exact absurd h (by simp)
  · rfl

/-- Every way the engines' own step can go. -/
theorem idleStep_cases (s : State) :
    ((s.ctrlBusy = true ∧ s.outPending = true) ∧
        (idleStep s = ctrlStep (s.drawn 1) ∨ idleStep s = outStep (s.drawn 1))) ∨
      (s.ctrlBusy = true ∧ s.outPending = false ∧ idleStep s = ctrlStep s) ∨
      (s.ctrlBusy = false ∧ idleStep s = outStep s) := by
  unfold idleStep
  cases s.ctrlBusy <;> cases s.outPending
  · simp
  · simp
  · simp
  · cases (Config.freeWord s.draws).getLsbD 0 <;> simp

/-- An address inside the window is a register access at its offset. -/
theorem hostAccess_register (s : State) (off : BitVec 9) (a : Access) :
    hostAccess ⟨s.cfg.mixerBase + off.setWidth 32, .word, a⟩ s = execRaw (.mmio off .word a) s := by
  have hin : (windowOf s.cfg).overlaps ⟨s.cfg.mixerBase + off.setWidth 32, Width.bytes .word⟩ = true := by
    have h9 := off.isLt
    have hb := s.cfg.mixerBase.isLt
    have hsum : (s.cfg.mixerBase + off.setWidth 32).toNat = (s.cfg.mixerBase.toNat + off.toNat) % 2 ^ 32 := by
      rw [BitVec.toNat_add, BitVec.toNat_setWidth, Nat.mod_eq_of_lt (a := off.toNat) (by omega)]
    simp only [Region.overlaps, Region.contains, windowOf, Width.bytes, hsum, addrSpace, windowSize, Bool.or_eq_true,
      Bool.and_eq_true, decide_eq_true_eq]
    refine Or.inr ⟨rfl, ?_⟩
    omega
  have hoff : (s.cfg.mixerBase + off.setWidth 32 - s.cfg.mixerBase).setWidth 9 = off := by
    rw [BitVec.add_comm, BitVec.add_sub_cancel]
    apply BitVec.eq_of_toNat_eq
    have := off.isLt
    simp only [BitVec.toNat_setWidth]
    omega
  unfold hostAccess
  rw [if_pos hin, hoff]

/-- What a program of register accesses does is what their instructions do, in order. -/
theorem step_registerAccess {s : State} {off : BitVec 9} {a : Access} {rest : List Event}
    (h : s.agenda = registerAccess s.cfg off a :: rest) :
    step s = execRaw (.mmio off .word a) { s with agenda := rest } := by
  rw [step_event h]
  exact hostAccess_register { s with agenda := rest } off a

/-! ## Port reads and the numbers of requests -/

/-- What a step does to the numbers of requests: the count does not fall, and a request waited for after
it was waited for before it or has a new number. -/
structure WaitsGrow (s t : State) : Prop where
  count : s.reqCount ≤ t.reqCount
  number : ∀ id req, t.outPhase = .awaitPort id req → s.outPhase = .awaitPort id req ∨ s.reqCount ≤ id

theorem WaitsGrow.of_eq {s t : State} (hc : t.reqCount = s.reqCount) (hp : t.outPhase = s.outPhase) :
    WaitsGrow s t :=
  ⟨hc ▸ Nat.le_refl _, fun _ _ h => .inl (hp ▸ h)⟩

theorem WaitsGrow.of_quiet {s t : State} (hc : t.reqCount = s.reqCount)
    (hp : ∀ id req, t.outPhase ≠ .awaitPort id req) : WaitsGrow s t :=
  ⟨hc ▸ Nat.le_refl _, fun id req h => absurd h (hp id req)⟩

theorem WaitsGrow.portCall (s : State) (q : PortReq) : WaitsGrow s (s.portCall q) :=
  ⟨Nat.le_succ _, fun _ _ h => by cases h; exact .inr (Nat.le_refl _)⟩

theorem channelCommand_waitsGrow {rejectFree : Bool} {h : BitVec 8} {s t : State} {f : Slot → Slot}
    (e : channelCommand rejectFree h s f = .next t) : WaitsGrow s t := by
  rcases channelCommand_cases rejectFree h s f with ⟨_, _, e'⟩ | ⟨_, e'⟩ <;>
    (rw [e'] at e; cases e; exact .of_eq rfl rfl)

theorem execMix_waitsGrow {ch : BitVec 8} {s t : State} (e : execMix ch s = .next t) : WaitsGrow s t := by
  obtain ⟨v, d, fs, e', -⟩ := execMix_cases ch s
  rw [e'] at e
  cases e
  exact .of_eq (by simp) (by simp)

theorem exec_waitsGrow {i : Instr} {s t : State} (e : exec i s = .next t) : WaitsGrow s t := by
  cases i
  case free | submit | setVolume | fadeOut | fadeIn =>
    simp only [exec, execFree, execSubmit, execSetVolume, execFadeOut, execFadeIn] at e
    exact channelCommand_waitsGrow e
  case mix ch => exact execMix_waitsGrow (ch := ch) e
  case alloc =>
    simp only [exec, execAlloc] at e
    split at e <;> (cases e; exact .of_eq rfl rfl)
  case onop | illegalOut => cases e; exact .of_quiet rfl (by simp)
  case reserve => cases e; exact .portCall ..
  case release => cases e; exact .of_quiet (by simp) (by simp)
  case output =>
    simp only [exec, execOutput] at e
    split at e
    · cases e; exact .of_quiet rfl (by simp)
    · split at e
      · cases e; exact .of_quiet rfl (by simp)
      · cases e; exact .portCall ..
  case wrOutCmd =>
    cases e
    unfold State.outPortWrite
    split
    · exact .of_eq rfl rfl
    · exact .of_quiet rfl (by simp)
  case wrCtrlCmd | wrCtrlArg0 | wrCtrlArg1 | wrCtrlArg2 =>
    cases e; unfold State.ctrlPortWrite; split <;> exact .of_eq rfl rfl
  case wrOutArg0 | wrOutArg1 => cases e; unfold State.outPortWrite; split <;> exact .of_eq rfl rfl
  case reserved off a => cases a <;> (cases e; exact .of_eq rfl rfl)
  case rdChState | rdChVolL | rdChVolR | rdChBufBase | rdChBufLen | rdChPosition | rdChFadeLevel | rdChFadeStep =>
    cases e; unfold State.bankRead; split <;> exact .of_eq rfl rfl
  all_goals (cases e; exact .of_eq rfl rfl)

theorem execRaw_waitsGrow {r : Raw} {s t : State} (e : execRaw r s = .next t) : WaitsGrow s t := by
  unfold execRaw at e
  split at e
  · exact exec_waitsGrow e
  · cases e

theorem ctrlStep_waitsGrow {s t : State} (e : ctrlStep s = .next t) : WaitsGrow s t := by
  unfold ctrlStep at e
  split at e
  · exact execRaw_waitsGrow e
  · cases e; exact .of_eq rfl rfl

theorem outStep_waitsGrow {s t : State} (e : outStep s = .next t) : WaitsGrow s t := by
  unfold outStep at e
  split at e
  · exact execRaw_waitsGrow e
  · cases e; exact .of_eq rfl rfl

theorem hostAccess_waitsGrow {a : BusAccess} {s t : State} (e : hostAccess a s = .next t) : WaitsGrow s t := by
  unfold hostAccess at e
  split at e
  · exact execRaw_waitsGrow e
  · split at e <;> cases e
    · exact .of_eq rfl rfl
    · exact .of_eq (by simp [State.hostStore]) (by simp [State.hostStore])

theorem portAnswer_waitsGrow (s : State) (id : Nat) (ans : PortAnswer) : WaitsGrow s (s.portAnswer id ans) := by
  unfold State.portAnswer
  split
  · split
    · split <;> cases ans <;> exact .of_quiet (by simp [finishReserve, finishOutput]) (by simp [finishReserve, finishOutput])
    · exact .of_eq rfl rfl
  · exact .of_eq rfl rfl

/-- All a Port read does: its result and the draw counter (R210). -/
theorem portLoad_cases (s : State) (a : Word) : ∃ v d, s.portLoad a = { s with portData := v, draws := d } := by
  unfold State.portLoad
  repeat' split
  all_goals exact ⟨_, _, rfl⟩

/-- A Port read of a byte of the waiting OUTPUT's buffer that is not open gets the byte in memory (R210). -/
theorem portLoad_memory {s : State} {a b h l r : Word} {id n : Nat}
    (hp : s.outPhase = .awaitPort id (.output h b n l r)) (hb : (⟨b, 2 * n⟩ : Region).contains a.toNat = true)
    (ht : anyContains s.outTouched a.toNat = false) (hm : s.mixPendingAt a.toNat = false) :
    s.portLoad a = { s with portData := s.mem.read a.toNat } := by
  simp [State.portLoad, hp, hb, ht, hm]

/-- The record of writes during an OUTPUT after one more (R78). -/
theorem noteOutputWrite_outTouched (s : State) (r : Region) :
    (s.noteOutputWrite r).outTouched = if s.outPhase.holdsOutput then r :: s.outTouched else s.outTouched := by
  unfold State.noteOutputWrite
  split <;> rfl

theorem portLoad_waitsGrow (s : State) (a : Word) : WaitsGrow s (s.portLoad a) := by
  obtain ⟨v, d, e⟩ := portLoad_cases s a
  rw [e]
  exact .of_eq rfl rfl

/-- Every step lets the numbers of requests only grow. -/
theorem step_waitsGrow {s t : State} (e : step s = .next t) : WaitsGrow s t := by
  cases h : s.agenda with
  | nil =>
    rw [step_idle h] at e
    rcases idleStep_cases s with ⟨_, h1 | h1⟩ | ⟨_, _, h1⟩ | ⟨_, h1⟩ <;> rw [h1] at e
    · have := ctrlStep_waitsGrow e; exact ⟨this.1, this.2⟩
    · have := outStep_waitsGrow e; exact ⟨this.1, this.2⟩
    · exact ctrlStep_waitsGrow e
    · exact outStep_waitsGrow e
  | cons ev rest =>
    rw [step_event h] at e
    suffices hg : WaitsGrow { s with agenda := rest } t from ⟨hg.1, hg.2⟩
    cases ev with
    | host a => exact hostAccess_waitsGrow e
    | ctrlEngine => exact ctrlStep_waitsGrow e
    | outEngine => exact outStep_waitsGrow e
    | portAnswer id ans => cases e; exact portAnswer_waitsGrow ..
    | portRead a => cases e; exact portLoad_waitsGrow ..
    | reset => cases e; exact .of_quiet (by simp [State.applyReset]) (by simp [State.applyReset, State.atReset])

end Sys2Proof.Machine
end

