-- ==== Sys2Proof/Laws/Access.lean ====
section
/-! SUPPORT. What hosts, MIX and the Port see of memory that is open (R68, R77, R78), and what a host's write
records. -/

namespace Sys2Proof.Machine

/-- What a region holds: an offset from its base below its size, modulo the address space (R69). -/
theorem Region.contains_iff (r : Region) (x : Nat) :
    r.contains x = true ↔ (x + (2 ^ 32 - r.base.toNat)) % 2 ^ 32 < r.size := by
  exact decide_eq_true_iff

/-- Two regions overlap exactly if some address lies in both. -/
theorem Region.overlaps_iff (r q : Region) :
    r.overlaps q = true ↔ ∃ x : Word, r.contains x.toNat = true ∧ q.contains x.toNat = true := by
  have hr := r.base.isLt
  have hq := q.base.isLt
  simp only [Region.overlaps, Bool.or_eq_true, Bool.and_eq_true, decide_eq_true_eq, Region.contains_iff]
  constructor
  · rintro (⟨h1, h2⟩ | ⟨h1, h2⟩)
    · exact ⟨r.base, by omega, h2⟩
    · exact ⟨q.base, h2, by omega⟩
  · rintro ⟨x, h1, h2⟩
    have hx := x.isLt
    omega

/-- All a host's write does to a slot: it enters the record of a slot that is not Free and whose buffer it
meets (R77). -/
theorem hostStore_slot (s : State) (a : Word) (width : Width) (v : Word) (c : Fin 8) :
    (s.hostStore a width v).slot c =
      if (s.slot c).state ≠ .free ∧ (s.slot c).buffer.overlaps ⟨a, width.bytes⟩ = true then
        { s.slot c with hostWrites := ⟨a, width.bytes⟩ :: (s.slot c).hostWrites }
      else s.slot c := by
  have h : (s.hostStore a width v).slot c = (s.slot c).noteHostWrite ⟨a, width.bytes⟩ := by
    simp [State.hostStore, State.slot]
  rw [h]
  simp only [Slot.noteHostWrite, Bool.and_eq_true, bne_iff_ne]

/-- A sample with a byte a host has written is a free draw (R77, R184). -/
theorem fetchSample_open {s : State} {sl : Slot} {a : Nat} (d : Nat)
    (h : anyContains sl.hostWrites a = true ∨ anyContains sl.hostWrites (wrapAddr (a + 1)) = true) :
    fetchSample s sl a d = (((Config.freeWord d).setWidth 16).toInt, d + 1) := by
  rw [fetchSample, if_pos (by simpa using h)]

/-- Any other sample is the one in memory (R184). -/
theorem fetchSample_memory {s : State} {sl : Slot} {a : Nat} (d : Nat)
    (h : anyContains sl.hostWrites a = false) (h1 : anyContains sl.hostWrites (wrapAddr (a + 1)) = false) :
    fetchSample s sl a d = ((BitVec.ofNat 16 (memRead s.cfg.sampleEndian s.mem a 2)).toInt, d) := by
  rw [fetchSample, if_neg (by simp [h, h1])]

/-- One more byte a host sees: the next draw in the output region of a pending MIX, else the byte in memory
(R68). -/
theorem seenBytes_succ (s : State) (a d n : Nat) :
    s.seenBytes a d (n + 1) =
      if s.mixPendingAt (wrapAddr a) = true then
        (freeByte d :: (s.seenBytes (a + 1) (d + 1) n).1, (s.seenBytes (a + 1) (d + 1) n).2)
      else (s.mem.read (wrapAddr a) :: (s.seenBytes (a + 1) d n).1, (s.seenBytes (a + 1) d n).2) := rfl

/-- What `mixPendingAt` says (R68). -/
theorem mixPendingAt_iff (s : State) (a : Nat) :
    s.mixPendingAt a = true ↔
      (∃ w ch, s.ctrlLatch = some w ∧ decodeCtrl w = .mix ch) ∧ s.mixRegion.contains a = true := by
  unfold State.mixPendingAt
  split
  · next w hw =>
    split
    · next ch hc => simp [hw, hc]
    · next hc =>
      simp only [hw, Option.some.injEq, Bool.false_eq_true, false_iff]
      rintro ⟨⟨_, ch, rfl, h⟩, -⟩
      exact hc ch h
  · next hw => simp [hw]

/-- A Port read of an open byte of the waiting OUTPUT's buffer gets the next draw (R68, R78). -/
theorem portLoad_open {s : State} {a b h l r : Word} {id n : Nat}
    (hp : s.outPhase = .awaitPort id (.output h b n l r)) (hb : (⟨b, 2 * n⟩ : Region).contains a.toNat = true)
    (ho : anyContains s.outTouched a.toNat = true ∨ s.mixPendingAt a.toNat = true) :
    s.portLoad a = { s with portData := freeByte s.draws, draws := s.draws + 1 } := by
  simp [State.portLoad, hp, hb, ho]

end Sys2Proof.Machine
end

