-- ==== Sys2Proof/Laws/PerInstr.lean ====
section
/-! SUPPORT. Statements about every instruction as syntax, one lemma per constructor. -/

namespace Sys2Proof.Laws

/-- The transfer an instruction is encoded by is of the format its row of the opcode table names. -/
def EncodeFormat.Statement (i : Instr) : Prop := (encode i).format = i.format

theorem EncodeFormat.nop (ch : BitVec 8) : EncodeFormat.Statement (.nop ch) := rfl
theorem EncodeFormat.alloc (ch : BitVec 8) : EncodeFormat.Statement (.alloc ch) := rfl
theorem EncodeFormat.free (h : BitVec 8) : EncodeFormat.Statement (.free h) := rfl
theorem EncodeFormat.submit (h : BitVec 8) : EncodeFormat.Statement (.submit h) := rfl
theorem EncodeFormat.setVolume (h : BitVec 8) : EncodeFormat.Statement (.setVolume h) := rfl
theorem EncodeFormat.fadeOut (h : BitVec 8) : EncodeFormat.Statement (.fadeOut h) := rfl
theorem EncodeFormat.fadeIn (h : BitVec 8) : EncodeFormat.Statement (.fadeIn h) := rfl
theorem EncodeFormat.setSampleCount (ch : BitVec 8) : EncodeFormat.Statement (.setSampleCount ch) := rfl
theorem EncodeFormat.mix (ch : BitVec 8) : EncodeFormat.Statement (.mix ch) := rfl
theorem EncodeFormat.illegalCtrl (w : Word) : EncodeFormat.Statement (.illegalCtrl w) := rfl
theorem EncodeFormat.onop : EncodeFormat.Statement (.onop) := rfl
theorem EncodeFormat.reserve : EncodeFormat.Statement (.reserve) := rfl
theorem EncodeFormat.release : EncodeFormat.Statement (.release) := rfl
theorem EncodeFormat.output : EncodeFormat.Statement (.output) := rfl
theorem EncodeFormat.illegalOut (w : Word) : EncodeFormat.Statement (.illegalOut w) := rfl
theorem EncodeFormat.wrCtrlCmd (w : Word) : EncodeFormat.Statement (.wrCtrlCmd w) := rfl
theorem EncodeFormat.rdCtrlCmd : EncodeFormat.Statement (.rdCtrlCmd) := rfl
theorem EncodeFormat.wrCtrlArg0 (w : Word) : EncodeFormat.Statement (.wrCtrlArg0 w) := rfl
theorem EncodeFormat.rdCtrlArg0 : EncodeFormat.Statement (.rdCtrlArg0) := rfl
theorem EncodeFormat.wrCtrlArg1 (w : Word) : EncodeFormat.Statement (.wrCtrlArg1 w) := rfl
theorem EncodeFormat.rdCtrlArg1 : EncodeFormat.Statement (.rdCtrlArg1) := rfl
theorem EncodeFormat.wrCtrlArg2 (w : Word) : EncodeFormat.Statement (.wrCtrlArg2 w) := rfl
theorem EncodeFormat.rdCtrlArg2 : EncodeFormat.Statement (.rdCtrlArg2) := rfl
theorem EncodeFormat.wrCtrlStatus (w : Word) : EncodeFormat.Statement (.wrCtrlStatus w) := rfl
theorem EncodeFormat.rdCtrlStatus : EncodeFormat.Statement (.rdCtrlStatus) := rfl
theorem EncodeFormat.wrCtrlResult (w : Word) : EncodeFormat.Statement (.wrCtrlResult w) := rfl
theorem EncodeFormat.rdCtrlResult : EncodeFormat.Statement (.rdCtrlResult) := rfl
theorem EncodeFormat.wrMasterVol (w : Word) : EncodeFormat.Statement (.wrMasterVol w) := rfl
theorem EncodeFormat.rdMasterVol : EncodeFormat.Statement (.rdMasterVol) := rfl
theorem EncodeFormat.wrSampleCount (w : Word) : EncodeFormat.Statement (.wrSampleCount w) := rfl
theorem EncodeFormat.rdSampleCount : EncodeFormat.Statement (.rdSampleCount) := rfl
theorem EncodeFormat.wrConfig (w : Word) : EncodeFormat.Statement (.wrConfig w) := rfl
theorem EncodeFormat.rdConfig : EncodeFormat.Statement (.rdConfig) := rfl
theorem EncodeFormat.wrCtrlLock (w : Word) : EncodeFormat.Statement (.wrCtrlLock w) := rfl
theorem EncodeFormat.rdCtrlLock : EncodeFormat.Statement (.rdCtrlLock) := rfl
theorem EncodeFormat.wrOutCmd (w : Word) : EncodeFormat.Statement (.wrOutCmd w) := rfl
theorem EncodeFormat.rdOutCmd : EncodeFormat.Statement (.rdOutCmd) := rfl
theorem EncodeFormat.wrOutArg0 (w : Word) : EncodeFormat.Statement (.wrOutArg0 w) := rfl
theorem EncodeFormat.rdOutArg0 : EncodeFormat.Statement (.rdOutArg0) := rfl
theorem EncodeFormat.wrOutArg1 (w : Word) : EncodeFormat.Statement (.wrOutArg1 w) := rfl
theorem EncodeFormat.rdOutArg1 : EncodeFormat.Statement (.rdOutArg1) := rfl
theorem EncodeFormat.wrOutStatus (w : Word) : EncodeFormat.Statement (.wrOutStatus w) := rfl
theorem EncodeFormat.rdOutStatus : EncodeFormat.Statement (.rdOutStatus) := rfl
theorem EncodeFormat.wrOutErrcode (w : Word) : EncodeFormat.Statement (.wrOutErrcode w) := rfl
theorem EncodeFormat.rdOutErrcode : EncodeFormat.Statement (.rdOutErrcode) := rfl
theorem EncodeFormat.wrHwState (w : Word) : EncodeFormat.Statement (.wrHwState w) := rfl
theorem EncodeFormat.rdHwState : EncodeFormat.Statement (.rdHwState) := rfl
theorem EncodeFormat.wrHwHandle (w : Word) : EncodeFormat.Statement (.wrHwHandle w) := rfl
theorem EncodeFormat.rdHwHandle : EncodeFormat.Statement (.rdHwHandle) := rfl
theorem EncodeFormat.wrHwFrames (w : Word) : EncodeFormat.Statement (.wrHwFrames w) := rfl
theorem EncodeFormat.rdHwFrames : EncodeFormat.Statement (.rdHwFrames) := rfl
theorem EncodeFormat.rdChState (c : Fin 8) : EncodeFormat.Statement (.rdChState c) := rfl
theorem EncodeFormat.rdChVolL (c : Fin 8) : EncodeFormat.Statement (.rdChVolL c) := rfl
theorem EncodeFormat.rdChVolR (c : Fin 8) : EncodeFormat.Statement (.rdChVolR c) := rfl
theorem EncodeFormat.rdChBufBase (c : Fin 8) : EncodeFormat.Statement (.rdChBufBase c) := rfl
theorem EncodeFormat.rdChBufLen (c : Fin 8) : EncodeFormat.Statement (.rdChBufLen c) := rfl
theorem EncodeFormat.rdChPosition (c : Fin 8) : EncodeFormat.Statement (.rdChPosition c) := rfl
theorem EncodeFormat.rdChFadeLevel (c : Fin 8) : EncodeFormat.Statement (.rdChFadeLevel c) := rfl
theorem EncodeFormat.rdChFadeStep (c : Fin 8) : EncodeFormat.Statement (.rdChFadeStep c) := rfl
theorem EncodeFormat.wrChBank (c : Fin 8) (k : BitVec 5) (w : Word) : EncodeFormat.Statement (.wrChBank c k w) := rfl
theorem EncodeFormat.reserved (off : BitVec 9) (a : Access) : EncodeFormat.Statement (.reserved off a) := rfl

end Sys2Proof.Laws
end

