-- ==== Sys2Proof/Machine/HostProgram.lean ====
section
/-! DEFINITION. The host program syntax of R101 and R102, as events of the agenda. A poll loop of
unknown length is unrolled: `n` reads that do not end it, the steps that end it, and the read that
does; log 31. -/

namespace Sys2Proof.Machine.Prog

/-- `wr OFF, V`. -/
def wr (cfg : Config) (off : BitVec 9) (v : Word) : Event := registerAccess cfg off (.write v)

/-- `rd OFF`. -/
def rd (cfg : Config) (off : BitVec 9) : Event := registerAccess cfg off .read

/-- `sh ADDR, V`. -/
def sh (a v : Word) : Event := .host ⟨a, .half, .write v⟩

/-- `lh ADDR`. -/
def lh (a : Word) : Event := .host ⟨a, .half, .read⟩

/-- `poll OFF, MASK, V` that ends after `n` reads, once the steps `between` have been taken. -/
def poll (cfg : Config) (off : BitVec 9) (n : Nat) (between : List Event) : List Event :=
  List.replicate n (rd cfg off) ++ between ++ [rd cfg off]

/-- `waitc`: ended by the CTRL engine's step. -/
def waitc (cfg : Config) (n : Nat) : List Event := poll cfg 0x010 n [.ctrlEngine]

/-- `waito`: ended by the OUT engine's step and, where the command calls the Port, its answer. -/
def waito (cfg : Config) (n : Nat) (answer : List Event) : List Event :=
  poll cfg 0x050 n (.outEngine :: answer)

/-- `lock` that takes the lock at once. -/
def lock (cfg : Config) : List Event := poll cfg 0x024 0 []

/-- `unlock`. -/
def unlock (cfg : Config) : List Event := [wr cfg 0x024 0]

/-- A control command with its operand writes, in the order of R102. -/
def command (cfg : Config) (args : List (BitVec 9 × Word)) (w : Word) (n : Nat) : List Event :=
  args.map (fun a => wr cfg a.1 a.2) ++ [wr cfg 0x000 w] ++ waitc cfg n

/-- `c.nop`. -/
def cNop (cfg : Config) (n : Nat) : List Event := command cfg [] (ctrlWord 0x00 0) n

/-- `c.alloc L, R, LOOP`. -/
def cAlloc (cfg : Config) (l r loop : Word) (n : Nat) : List Event :=
  command cfg [(0x004, l), (0x008, r), (0x00C, loop)] (ctrlWord 0x01 0) n

/-- `c.free H`. -/
def cFree (cfg : Config) (h : BitVec 8) (n : Nat) : List Event := command cfg [] (ctrlWord 0x02 h) n

/-- `c.submit H, BASE, FRAMES`. -/
def cSubmit (cfg : Config) (h : BitVec 8) (base frames : Word) (n : Nat) : List Event :=
  command cfg [(0x004, base), (0x008, frames)] (ctrlWord 0x03 h) n

/-- `c.setvol H, L, R`. -/
def cSetvol (cfg : Config) (h : BitVec 8) (l r : Word) (n : Nat) : List Event :=
  command cfg [(0x004, l), (0x008, r)] (ctrlWord 0x04 h) n

/-- `c.fadeout H, N`. -/
def cFadeout (cfg : Config) (h : BitVec 8) (len : Word) (n : Nat) : List Event :=
  command cfg [(0x004, len)] (ctrlWord 0x05 h) n

/-- `c.fadein H, N`. -/
def cFadein (cfg : Config) (h : BitVec 8) (len : Word) (n : Nat) : List Event :=
  command cfg [(0x004, len)] (ctrlWord 0x06 h) n

/-- `c.setsc N`. -/
def cSetsc (cfg : Config) (frames : Word) (n : Nat) : List Event :=
  command cfg [(0x004, frames)] (ctrlWord 0x07 0) n

/-- `c.mix OUT`. -/
def cMix (cfg : Config) (out : Word) (n : Nat) : List Event :=
  command cfg [(0x004, out)] (ctrlWord 0x08 0) n

/-- `mv V`. -/
def mv (cfg : Config) (v : Word) : List Event := [wr cfg 0x018 v]

/-- `o.reserve`, with the Port's answer. -/
def oReserve (cfg : Config) (n : Nat) (answer : List Event) : List Event :=
  [wr cfg 0x040 (outWord 0x01)] ++ waito cfg n answer

/-- `o.release`. -/
def oRelease (cfg : Config) (n : Nat) : List Event := [wr cfg 0x040 (outWord 0x02)] ++ waito cfg n []

/-- `o.output BASE, LEN`, with the Port's answer where the command calls the Port. -/
def oOutput (cfg : Config) (base len : Word) (n : Nat) (answer : List Event) : List Event :=
  [wr cfg 0x044 base, wr cfg 0x048 len, wr cfg 0x040 (outWord 0x03)] ++ waito cfg n answer

end Sys2Proof.Machine.Prog
end

