-- ==== Sys2Proof/Tests/Slice0.lean ====
section
/-! SUPPORT. Tests: the well-formedness checks, decoding of words written out from the spec, one step of
each instruction against the vectors of 95_test_vectors.md, and a witness for the hypotheses of every
statement that has some. -/

namespace Sys2Proof.Tests

open Sys2Proof Sys2Proof.Machine Sys2Proof.Statements

/-! ## Well-formedness: one ill-formed term for each check -/

theorem test_wf_illegalCtrl_of_a_command : (Instr.illegalCtrl 0x00000302).wf = false := by decide
theorem test_wf_illegalOut_of_a_command : (Instr.illegalOut 0x00000003).wf = false := by decide
theorem test_wf_wrChBank_misaligned : (Instr.wrChBank 3 0x02 7).wf = false := by decide
theorem test_wf_reserved_named : (Instr.reserved 0x018 .read).wf = false := by decide
theorem test_wf_reserved_misaligned : (Instr.reserved 0x029 .read).wf = false := by decide
theorem test_wf_reserved_bank : (Instr.reserved 0x100 .read).wf = false := by decide
theorem test_wf_good : (Instr.illegalCtrl 0x00010000).wf = true ∧ (Instr.illegalOut 0x00000101).wf = true ∧
    (Instr.reserved 0x028 (.write 1)).wf = true := by decide

/-! ## Decoding: words written out bit by bit

CTRL: RSV 31:16, CH 15:8, OP 7:0 (R91, R92). OUT: RSV 31:8, OP 7:0 (R94, R95). MMIO: the offsets of R23 and
R39. -/

theorem test_decode_nop : decode (.ctrl 0b0000000000000000_00000101_00000000) = .ok (.nop 5) := by decide
theorem test_decode_alloc : decode (.ctrl 0b0000000000000000_00000000_00000001) = .ok (.alloc 0) := by decide
theorem test_decode_free : decode (.ctrl 0b0000000000000000_00000011_00000010) = .ok (.free 3) := by decide
theorem test_decode_submit : decode (.ctrl 0b0000000000000000_00000000_00000011) = .ok (.submit 0) := by decide
theorem test_decode_setVolume : decode (.ctrl 0b0000000000000000_00000101_00000100) = .ok (.setVolume 5) := by
  decide
theorem test_decode_fadeOut : decode (.ctrl 0b0000000000000000_00000111_00000101) = .ok (.fadeOut 7) := by decide
theorem test_decode_fadeIn : decode (.ctrl 0b0000000000000000_11111111_00000110) = .ok (.fadeIn 255) := by decide
theorem test_decode_setSampleCount :
    decode (.ctrl 0b0000000000000000_00000000_00000111) = .ok (.setSampleCount 0) := by decide
theorem test_decode_mix : decode (.ctrl 0b0000000000000000_00000101_00001000) = .ok (.mix 5) := by decide
theorem test_decode_illegalCtrl_op :
    decode (.ctrl 0b0000000000000000_00000000_00001001) = .ok (.illegalCtrl 0x00000009) := by decide
theorem test_decode_illegalCtrl_rsv :
    decode (.ctrl 0b0000000000000001_00001001_00000011) = .ok (.illegalCtrl 0x00010903) := by decide
theorem test_decode_onop : decode (.out 0b000000000000000000000000_00000000) = .ok .onop := by decide
theorem test_decode_reserve : decode (.out 0b000000000000000000000000_00000001) = .ok .reserve := by decide
theorem test_decode_release : decode (.out 0b000000000000000000000000_00000010) = .ok .release := by decide
theorem test_decode_output : decode (.out 0b000000000000000000000000_00000011) = .ok .output := by decide
theorem test_decode_illegalOut_op :
    decode (.out 0b000000000000000000000000_00000100) = .ok (.illegalOut 0x00000004) := by decide
theorem test_decode_illegalOut_rsv :
    decode (.out 0b000000000000000000000001_00000001) = .ok (.illegalOut 0x00000101) := by decide

/-- Each CTRL register of R23 in both directions. -/
theorem test_decode_ctrl_registers :
    decode (.mmio 0x000 .word (.write 9)) = .ok (.wrCtrlCmd 9) ∧ decode (.mmio 0x000 .word .read) = .ok .rdCtrlCmd ∧
    decode (.mmio 0x004 .word (.write 9)) = .ok (.wrCtrlArg0 9) ∧ decode (.mmio 0x004 .word .read) = .ok .rdCtrlArg0 ∧
    decode (.mmio 0x008 .word (.write 9)) = .ok (.wrCtrlArg1 9) ∧ decode (.mmio 0x008 .word .read) = .ok .rdCtrlArg1 ∧
    decode (.mmio 0x00C .word (.write 9)) = .ok (.wrCtrlArg2 9) ∧ decode (.mmio 0x00C .word .read) = .ok .rdCtrlArg2 ∧
    decode (.mmio 0x010 .word (.write 9)) = .ok (.wrCtrlStatus 9) ∧
    decode (.mmio 0x010 .word .read) = .ok .rdCtrlStatus ∧
    decode (.mmio 0x014 .word (.write 9)) = .ok (.wrCtrlResult 9) ∧
    decode (.mmio 0x014 .word .read) = .ok .rdCtrlResult ∧
    decode (.mmio 0x018 .word (.write 9)) = .ok (.wrMasterVol 9) ∧
    decode (.mmio 0x018 .word .read) = .ok .rdMasterVol ∧
    decode (.mmio 0x01C .word (.write 9)) = .ok (.wrSampleCount 9) ∧
    decode (.mmio 0x01C .word .read) = .ok .rdSampleCount ∧
    decode (.mmio 0x020 .word (.write 9)) = .ok (.wrConfig 9) ∧ decode (.mmio 0x020 .word .read) = .ok .rdConfig ∧
    decode (.mmio 0x024 .word (.write 9)) = .ok (.wrCtrlLock 9) ∧
    decode (.mmio 0x024 .word .read) = .ok .rdCtrlLock := by decide

/-- Each OUT register of R23 in both directions. -/
theorem test_decode_out_registers :
    decode (.mmio 0x040 .word (.write 9)) = .ok (.wrOutCmd 9) ∧ decode (.mmio 0x040 .word .read) = .ok .rdOutCmd ∧
    decode (.mmio 0x044 .word (.write 9)) = .ok (.wrOutArg0 9) ∧ decode (.mmio 0x044 .word .read) = .ok .rdOutArg0 ∧
    decode (.mmio 0x048 .word (.write 9)) = .ok (.wrOutArg1 9) ∧ decode (.mmio 0x048 .word .read) = .ok .rdOutArg1 ∧
    decode (.mmio 0x050 .word (.write 9)) = .ok (.wrOutStatus 9) ∧
    decode (.mmio 0x050 .word .read) = .ok .rdOutStatus ∧
    decode (.mmio 0x054 .word (.write 9)) = .ok (.wrOutErrcode 9) ∧
    decode (.mmio 0x054 .word .read) = .ok .rdOutErrcode ∧
    decode (.mmio 0x058 .word (.write 9)) = .ok (.wrHwState 9) ∧ decode (.mmio 0x058 .word .read) = .ok .rdHwState ∧
    decode (.mmio 0x05C .word (.write 9)) = .ok (.wrHwHandle 9) ∧
    decode (.mmio 0x05C .word .read) = .ok .rdHwHandle ∧
    decode (.mmio 0x060 .word (.write 9)) = .ok (.wrHwFrames 9) ∧
    decode (.mmio 0x060 .word .read) = .ok .rdHwFrames := by decide

/-- The bank of slot 1 (0x120..0x13C) and a write to that of slot 7 (R39). -/
theorem test_decode_bank :
    decode (.mmio 0x120 .word .read) = .ok (.rdChState 1) ∧ decode (.mmio 0x124 .word .read) = .ok (.rdChVolL 1) ∧
    decode (.mmio 0x128 .word .read) = .ok (.rdChVolR 1) ∧ decode (.mmio 0x12C .word .read) = .ok (.rdChBufBase 1) ∧
    decode (.mmio 0x130 .word .read) = .ok (.rdChBufLen 1) ∧
    decode (.mmio 0x134 .word .read) = .ok (.rdChPosition 1) ∧
    decode (.mmio 0x138 .word .read) = .ok (.rdChFadeLevel 1) ∧
    decode (.mmio 0x13C .word .read) = .ok (.rdChFadeStep 1) ∧
    decode (.mmio 0x1F4 .word (.write 7)) = .ok (.wrChBank 7 0x14 7) := by decide

theorem test_decode_reserved :
    decode (.mmio 0x028 .word .read) = .ok (.reserved 0x028 .read) ∧
    decode (.mmio 0x0FC .word (.write 1)) = .ok (.reserved 0x0FC (.write 1)) := by decide

/-- V-REG-22: a 16-bit access, and a 32-bit one at 0x002. -/
theorem test_decode_rejects :
    decode (.mmio 0x018 .half .read) = .error .wrongWidth ∧
    decode (.mmio 0x002 .word (.write 0)) = .error .misaligned := by decide

/-- A table number picks its row: CTRL and read with nothing above the table's bits. -/
theorem test_decode_table :
    decodeTableWord 32 0x00000302 = some (.free 3) ∧ decodeTableWord 40 0x100000003 = some .output ∧
    decodeTableWord 16 0x018 = some .rdMasterVol ∧ decodeTableWord 48 0x40000218 = some (.wrMasterVol 0x4000) := by
  decide

/-! ## Small states -/

/-- The state an instruction leaves. -/
def after (i : Instr) (s : State) : State :=
  match exec i s with
  | .next t => t
  | _ => s

/-- The state a step leaves. -/
def stepped (s : State) : State :=
  match step s with
  | .next t => t
  | _ => s

/-- Reset, with other operands. -/
def args (a0 a1 a2 : Word) : State := { State.reset with ctrlArg0 := a0, ctrlArg1 := a1, ctrlArg2 := a2 }

/-- A slot that plays four frames from 0x1000 at unity. -/
def player : Slot :=
  { Slot.freeSlot with state := .playing, volL := 0x8000, volR := 0x8000, bufBase := 0x1000, bufLen := 4 }

/-- A machine with slot 0 as given, passes of `n` frames, and one frame (1000, -2) at 0x1000. -/
def mixer (n : Nat) (sl : Slot) : State :=
  { State.reset with
    sampleCount := BitVec.ofNat 32 n
    ctrlArg0 := 0x8001
    mem := [(0x1000, 0xE8), (0x1001, 0x03), (0x1002, 0xFE), (0x1003, 0xFF)] }.setSlot 0 sl

/-- A machine with a channel reserved: handle 3, 1024 frames. -/
def reserved3 : State := { State.reset with hw := some ⟨3, 1024⟩, outArg0 := 0x8000, outArg1 := 2048 }

/-- A machine whose OUTPUT number 0 waits on the Port. -/
def waiting : State := after .output reserved3

/-! ## One step of each instruction -/

/-- V-REG-24. -/
theorem test_nop : (after (.nop 0) { State.reset with ctrlCode := .invalidChannel }).ctrlCode = .ok := by decide
/-- V-LC-1. -/
theorem test_alloc :
    (after (.alloc 0) (args 0x8000 0x6000 1)).ctrlResult = 0 ∧
    ((after (.alloc 0) (args 0x8000 0x6000 1)).slot 0).stateWord = 0x00000101 ∧
    ((after (.alloc 0) (args 0x8000 0x6000 1)).slot 0).volR = 0x6000 := by decide
/-- V-LC-3. -/
theorem test_alloc_clamped :
    ((after (.alloc 0) { args 0x00010000 0xFFFFFFFF 0 with
      cfg := { Config.default with clampChannelVolume := true } }).slot 0).volL = 0x8000 ∧
    ((after (.alloc 0) { args 0x00010000 0xFFFFFFFF 0 with
      cfg := { Config.default with clampChannelVolume := true } }).slot 0).volR = 0 := by decide
/-- V-LC-6. -/
theorem test_free : (after (.free 3) (State.reset.setSlot 3 player)).slot 3 = freeSlotValue := by decide
/-- V-LC-8. -/
theorem test_free_out_of_range : (after (.free 8) State.reset).ctrlCode = .invalidChannel := by decide
/-- V-LC-10 and V-LC-9: the odd base. -/
theorem test_submit :
    (after (.submit 0) ({ State.reset with ctrlArg0 := 0x1001, ctrlArg1 := 4 }.setSlot 0
      { player with state := .fadingOut, fadeLevel := 0x00600000, fadeStep := 0xFFC00000 })).slot 0 = player := by
  decide
/-- V-LC-11. -/
theorem test_submit_free : (after (.submit 0) (args 0x1000 4 0)).ctrlCode = .invalidChannel := by decide
/-- V-LC-13. -/
theorem test_setVolume :
    (after (.setVolume 1) ((args 0x8000 0 0).setSlot 1 player)).slot 1 = { player with volR := 0 } := by decide
/-- V-LC-14. -/
theorem test_setVolume_free : (after (.setVolume 1) (args 0x8000 0 0)).ctrlCode = .invalidChannel := by decide
/-- V-LC-17. -/
theorem test_fadeOut :
    (after (.fadeOut 0) ((args 3 0 0).setSlot 0 player)).slot 0 =
      { player with state := .fadingOut, fadeStep := 0xFFAAAAAB } := by decide
/-- V-LC-17 under Floor. -/
theorem test_fadeOut_floor :
    ((after (.fadeOut 0) ({ args 3 0 0 with cfg := { Config.default with divRounding := .floor } }.setSlot 0
      player)).slot 0).fadeStep = 0xFFAAAAAA := by decide
/-- V-LC-22. -/
theorem test_fadeIn :
    (after (.fadeIn 0) ((args 3 0 0).setSlot 0 player)).slot 0 =
      { player with fadeLevel := 0, fadeStep := 0x00555555 } := by decide
/-- V-LC-21. -/
theorem test_fadeIn_zero :
    (after (.fadeIn 0) ((args 0 0 0).setSlot 0
      { player with state := .fadingOut, fadeLevel := 7, fadeStep := 0xFFC00000 })).slot 0 =
      { player with state := .fadingOut } := by decide
/-- V-SCNT-6. -/
theorem test_setSampleCount : (after (.setSampleCount 0) (args 999 0 0)).sampleCount = 1024 := by decide
/-- V-SCNT-11. -/
theorem test_setSampleCount_saturates :
    (after (.setSampleCount 0) (args 0xFFFFFFFF 0 0)).sampleCount = 65472 := by decide
/-- V-MIX-16 and V-MIX-11, for a pass of two frames: one frame is played at 0x8000, then the slot is Idle. -/
theorem test_mix :
    sampleAt Config.default (after (.mix 0) (mixer 2 { player with bufLen := 1 })).mem 0x8000 = 1000 ∧
    sampleAt Config.default (after (.mix 0) (mixer 2 { player with bufLen := 1 })).mem 0x8002 = -2 ∧
    (after (.mix 0) (mixer 2 { player with bufLen := 1 })).slot 0 =
      { player with bufLen := 1, position := 1, state := .idle } := by decide
/-- V-MIX-13. -/
theorem test_mix_empty :
    (after (.mix 5) (mixer 1 { player with bufLen := 0, fadeStep := 0x00800000 })).slot 0 =
      { player with bufLen := 0, fadeStep := 0x00800000, state := .idle } := by decide
/-- V-ERR-4. -/
theorem test_illegalCtrl :
    after (.illegalCtrl 0x00010903) State.reset = { State.reset with ctrlCode := .illegalCommand } := by decide
/-- V-OUT-15. -/
theorem test_onop : (after .onop { State.reset with outCode := .noHwChannel, outPhase := .pending 0 }).outStatus = 0 := by
  decide
/-- V-OUT-1: the request. -/
theorem test_reserve :
    (after .reserve State.reset).portLog = [.request 0 (.reserve 1024 .stereoS16)] ∧
    (after .reserve State.reset).outStatus = 0x100 := by decide
/-- V-OUT-5. -/
theorem test_release :
    (after .release reserved3).portLog = [.release 3] ∧ (after .release reserved3).hw = none := by decide
/-- V-OUT-6. -/
theorem test_release_none : (after .release State.reset).portLog = [] := by decide
/-- V-OUT-7: the request. -/
theorem test_output :
    waiting.portLog = [.request 0 (.output 3 0x8000 2048 0x8000 0x8000)] ∧ waiting.outStatus = 0x100 := by decide
/-- V-OUT-10. -/
theorem test_output_checks_length_first : (after .output { State.reset with outArg1 := 100 }).outStatus = 5 := by decide
/-- V-ERR-8. -/
theorem test_illegalOut :
    after (.illegalOut 0x00000101) State.reset = { State.reset with outCode := .illegalCommand } := by decide
/-- V-REG-11. -/
theorem test_wrCtrlCmd : (after (.wrCtrlCmd 0x0302) State.reset).ctrlStatus = 0x00000100 := by decide
/-- V-REG-13. -/
theorem test_wrCtrlCmd_busy :
    after (.wrCtrlCmd 2) { State.reset with ctrlLatch := some 1 } =
      { State.reset with ctrlLatch := some 1, ctrlOvr := true } := by decide
/-- V-REG-17. -/
theorem test_rdCtrlCmd : (after .rdCtrlCmd { State.reset with ctrlLatch := some 1 }).readData = 0 := by decide
/-- V-REG-12. -/
theorem test_wrCtrlArg0_busy :
    (after (.wrCtrlArg0 5) { State.reset with ctrlLatch := some 0 }).ctrlArg0 = 0 ∧
    (after (.wrCtrlArg0 5) { State.reset with ctrlLatch := some 0 }).ctrlStatus = 0x300 := by decide
theorem test_wrCtrlArg0 : after (.wrCtrlArg0 5) State.reset = args 5 0 0 := by decide
theorem test_rdCtrlArg0 : (after .rdCtrlArg0 (args 5 6 7)).readData = 5 := by decide
theorem test_wrCtrlArg1 : after (.wrCtrlArg1 6) State.reset = args 0 6 0 := by decide
theorem test_rdCtrlArg1 : (after .rdCtrlArg1 (args 5 6 7)).readData = 6 := by decide
/-- V-REG-16. -/
theorem test_wrCtrlArg2 : after (.wrCtrlArg2 0xFFFFFFFF) State.reset = args 0 0 0xFFFFFFFF := by decide
theorem test_rdCtrlArg2 : (after .rdCtrlArg2 (args 5 6 0xFFFFFFFF)).readData = 0xFFFFFFFF := by decide
/-- V-REG-14. -/
theorem test_wrCtrlStatus_clears :
    (after (.wrCtrlStatus 0x200) { State.reset with ctrlOvr := true, ctrlCode := .invalidChannel }).ctrlStatus = 2 := by
  decide
/-- V-REG-15. -/
theorem test_wrCtrlStatus_keeps :
    (after (.wrCtrlStatus 0x10F) { State.reset with ctrlOvr := true, ctrlCode := .invalidChannel }).ctrlStatus =
      0x202 := by decide
/-- V-REG-8. -/
theorem test_rdCtrlStatus : (after .rdCtrlStatus { State.reset with readData := 9 }).readData = 0 := by decide
theorem test_wrCtrlResult : after (.wrCtrlResult 9) State.reset = State.reset := by decide
theorem test_rdCtrlResult : (after .rdCtrlResult { State.reset with ctrlResult := 7 }).readData = 7 := by decide
/-- V-REG-5. -/
theorem test_wrMasterVol_negative : (after (.wrMasterVol 0x80000000) State.reset).masterVol = 0 := by decide
/-- V-REG-6. -/
theorem test_wrMasterVol_large : (after (.wrMasterVol 0x7FFFFFFF) State.reset).masterVol = 0x8000 := by decide
/-- V-REG-1. -/
theorem test_rdMasterVol : (after .rdMasterVol State.reset).readData = 0x8000 := by decide
theorem test_wrSampleCount : after (.wrSampleCount 64) State.reset = State.reset := by decide
/-- V-REG-7. -/
theorem test_rdSampleCount : (after .rdSampleCount State.reset).readData = 0x400 := by decide
/-- V-REG-19. -/
theorem test_wrConfig : (after .rdConfig (after (.wrConfig 0x55) State.reset)).readData = 8 := by decide
/-- V-REG-7. -/
theorem test_rdConfig : (after .rdConfig State.reset).readData = 8 := by decide
/-- V-REG-10. -/
theorem test_wrCtrlLock : (after (.wrCtrlLock 0xFFFFFFFE) { State.reset with lockHeld := true }).lockHeld = false := by
  decide
/-- V-REG-9. -/
theorem test_rdCtrlLock :
    (after .rdCtrlLock State.reset).readData = 0 ∧
    (after .rdCtrlLock (after .rdCtrlLock State.reset)).readData = 1 := by decide
theorem test_wrOutCmd : (after (.wrOutCmd 2) State.reset).outPhase = .pending 2 := by decide
/-- V-OUT-14. -/
theorem test_wrOutCmd_busy : after (.wrOutCmd 2) waiting = { waiting with outOvr := true } := by decide
/-- V-REG-17. -/
theorem test_rdOutCmd : (after .rdOutCmd { waiting with readData := 9 }).readData = 0 := by decide
theorem test_wrOutArg0 : (after (.wrOutArg0 0x9000) reserved3).outArg0 = 0x9000 := by decide
theorem test_wrOutArg0_busy : after (.wrOutArg0 0x9000) waiting = { waiting with outOvr := true } := by decide
theorem test_rdOutArg0 : (after .rdOutArg0 reserved3).readData = 0x8000 := by decide
theorem test_wrOutArg1 : (after (.wrOutArg1 7) reserved3).outArg1 = 7 := by decide
theorem test_rdOutArg1 : (after .rdOutArg1 reserved3).readData = 2048 := by decide
theorem test_wrOutStatus : (after (.wrOutStatus 0x200) { waiting with outOvr := true }).outStatus = 0x100 := by decide
theorem test_rdOutStatus : (after .rdOutStatus { waiting with outCode := .audioError }).readData = 0x103 := by decide
theorem test_wrOutErrcode : after (.wrOutErrcode 9) State.reset = State.reset := by decide
theorem test_rdOutErrcode : (after .rdOutErrcode { State.reset with outErrcode := 0x42 }).readData = 0x42 := by decide
theorem test_wrHwState : after (.wrHwState 0) reserved3 = reserved3 := by decide
theorem test_rdHwState : (after .rdHwState reserved3).readData = 1 ∧ (after .rdHwState State.reset).readData = 0 := by
  decide
theorem test_wrHwHandle : after (.wrHwHandle 0) reserved3 = reserved3 := by decide
theorem test_rdHwHandle : (after .rdHwHandle reserved3).readData = 3 ∧ (after .rdHwHandle State.reset).readData = 0 := by
  decide
theorem test_wrHwFrames : after (.wrHwFrames 0) reserved3 = reserved3 := by decide
theorem test_rdHwFrames : (after .rdHwFrames reserved3).readData = 1024 := by decide
/-- R39: the state in bits 1:0, looping in bit 8. -/
theorem test_rdChState :
    (after (.rdChState 2) (State.reset.setSlot 2 { player with state := .fadingOut, looping := true })).readData =
      0x103 := by decide
theorem test_rdChVolL : (after (.rdChVolL 2) (State.reset.setSlot 2 { player with volL := 5 })).readData = 5 := by decide
theorem test_rdChVolR : (after (.rdChVolR 2) (State.reset.setSlot 2 { player with volR := 5 })).readData = 5 := by decide
theorem test_rdChBufBase : (after (.rdChBufBase 2) (State.reset.setSlot 2 player)).readData = 0x1000 := by decide
theorem test_rdChBufLen : (after (.rdChBufLen 2) (State.reset.setSlot 2 player)).readData = 4 := by decide
theorem test_rdChPosition :
    (after (.rdChPosition 2) (State.reset.setSlot 2 { player with position := 3 })).readData = 3 := by decide
/-- V-REG-20. -/
theorem test_rdChFadeLevel : (after (.rdChFadeLevel 0) State.reset).readData = 0x01000000 := by decide
theorem test_rdChFadeStep :
    (after (.rdChFadeStep 2) (State.reset.setSlot 2 { player with fadeStep := 0xFFC00000 })).readData =
      0xFFC00000 := by decide
/-- V-REG-21. -/
theorem test_wrChBank : (after (.rdChPosition 0) (after (.wrChBank 0 0x14 7) State.reset)).readData = 0 := by decide
/-- V-REG-18. -/
theorem test_reserved :
    (after (.reserved 0x028 .read) { State.reset with readData := 9 }).readData = 0 ∧
    after (.reserved 0x028 (.write 9)) State.reset = State.reset := by decide

/-! ## Gain vectors (section 2.3) -/

theorem test_scale_towardZero :
    scale .towardZero (-100) 0x6000 128 0x6000 = -27 ∧ scale .towardZero (-1) 0x8000 255 0x8000 = 0 ∧
    scale .towardZero 20000 0x10000 256 0x8000 = 32767 ∧ scale .towardZero (-32768) (-(2 ^ 31)) 256 0x8000 = 32767 ∧
    scale .towardZero (-7) 0x2000 64 0x7FFF = 0 := by decide
theorem test_scale_floor :
    scale .floor (-100) 0x6000 128 0x6000 = -29 ∧ scale .floor (-1) 0x8000 255 0x8000 = -1 ∧
    scale .floor (-20000) 0x10000 256 0x8000 = -32768 ∧ scale .floor 1000 (-0x8000) 256 0x8000 = -1000 ∧
    scale .floor (-7) 0x2000 64 0x7FFF = -1 := by decide

/-! ## Steps -/

/-- V-RST-2. -/
theorem test_reset_releases :
    (stepped { reserved3 with agenda := [.reset] }).portLog = [.release 3] ∧
    (stepped { reserved3 with agenda := [.reset] }).hw = none := by decide
/-- V-OUT-3. -/
theorem test_second_reserve :
    (stepped { reserved3 with
      outPhase := .awaitPort 0 (.reserve 512 .stereoS16), reqCount := 1, agenda := [.portAnswer 0 (.ok 4)] }).hw =
      some ⟨4, 512⟩ ∧
    (stepped { reserved3 with
      outPhase := .awaitPort 0 (.reserve 512 .stereoS16), reqCount := 1, agenda := [.portAnswer 0 (.ok 4)] }).portLog =
      [.release 3] := by decide
/-- V-OUT-11. -/
theorem test_output_error :
    (stepped { waiting with agenda := [.portAnswer 0 (.err 0x17)] }).outStatus = 3 ∧
    (stepped { waiting with agenda := [.portAnswer 0 (.err 0x17)] }).outErrcode = 0x17 := by decide
/-- V-MIX-17: -2000 is 0x30 then 0xF8, and `lh` gives it back. -/
theorem test_sh_little :
    (stepped { State.reset with agenda := [Prog.sh 0x8000 0xFFFFF830] }).mem = [(0x8000, 0x30), (0x8001, 0xF8)] ∧
    (stepped { State.reset with mem := [(0x8000, 0x30), (0x8001, 0xF8)], agenda := [Prog.lh 0x8000] }).readData =
      0xFFFFF830 := by decide
/-- R66: a half access to the window stops the machine. -/
theorem test_step_fault :
    (match step { State.reset with agenda := [.host ⟨0x018, .half, .read⟩] } with
      | .fault f => f == Fault.wrongWidth
      | _ => false) = true := by decide

/-! ## Witnesses: the hypotheses of each statement, met together

Named witness_<statement>, one for each clause that has hypotheses of its own. -/

/-- Slot 0 plays, the pass has 64 frames, and the invariant holds. -/
def playing64 : State := { State.reset with sampleCount := 64 }.setSlot 0 player

theorem playing64_inv : playing64.Inv := by decide

theorem mix_next (s : State) (ch : BitVec 8) : ∃ t, exec (.mix ch) s = .next t := ⟨_, rfl⟩

theorem witness_ResetStateMeetsTheInvariant : Config.default.wf = true := by decide
theorem witness_ResetSetsEveryElement : { reserved3 with agenda := [.reset] }.agenda = .reset :: [] := rfl
/-- An OUTPUT abandoned by reset, a channel held and none, and the answer to it one access later. -/
theorem witness_ResetDropsOutstandingWork :
    { waiting with agenda := [.reset] }.agenda = .reset :: [] ∧ waiting.hw = some ⟨3, 1024⟩ ∧
    { State.reset with agenda := [.reset] }.hw = none ∧
    waiting.outPhase = .awaitPort 0 (.output 3 0x8000 2048 0x8000 0x8000) ∧ 0 < waiting.reqCount ∧
    steps 1 (stepped { waiting with agenda := [.reset, Prog.lh 0x8000, .portAnswer 0 (.err 5)] }) =
      .next (stepped (stepped { waiting with agenda := [.reset, Prog.lh 0x8000, .portAnswer 0 (.err 5)] })) ∧
    (stepped (stepped { waiting with agenda := [.reset, Prog.lh 0x8000, .portAnswer 0 (.err 5)] })).agenda =
      .portAnswer 0 (.err 5) :: [] :=
  ⟨by decide, by decide, by decide, by decide, by decide, rfl, by decide⟩
/-- A register access at the last offset of the window, and each engine. -/
theorem witness_StepRunsTheDecodedInstruction :
    ({ State.reset with agenda := [.host ⟨0x1FC, .word, .read⟩] }.agenda =
        .host ⟨Config.default.mixerBase + (0x1FC : BitVec 9).setWidth 32, .word, .read⟩ :: [] ∧
      decode (.mmio 0x1FC .word .read) = .ok (.rdChFadeStep 7)) ∧
    ({ State.reset with agenda := [.ctrlEngine], ctrlLatch := some 0x0302 }.ctrlLatch = some 0x0302 ∧
      decode (.ctrl 0x0302) = .ok (.free 3)) ∧
    ({ State.reset with agenda := [.outEngine], outPhase := .pending 2 }.outPhase = .pending 2 ∧
      decode (.out 2) = .ok .release) := by decide
theorem witness_EmptyAgendaRunsAnEnabledEngine :
    State.reset.agenda = [] ∧ State.reset.ctrlLatch = none ∧ (∀ v, State.reset.outPhase ≠ .pending v) ∧
    { State.reset with ctrlLatch := some 0, outPhase := .pending 0 }.agenda = [] ∧
    decode (.ctrl 0) = .ok (.nop 0) ∧ decode (.out 0) = .ok .onop :=
  ⟨rfl, rfl, fun _ h => (by cases h), rfl, by decide, by decide⟩
theorem witness_PlacedInstructionRuns :
    (Instr.free 255).wf = true ∧ (Instr.reserved 0x0FC (.write 1)).wf = true ∧ (Instr.illegalOut 4).wf = true := by
  decide
theorem witness_EnginesDrainInTwoSteps : { State.reset with ctrlLatch := some 0, outPhase := .pending 0 }.agenda = [] :=
  rfl
theorem witness_DecodeEncodeAgree : (Instr.wrChBank 7 0x1C 5).wf = true ∧ (Instr.illegalCtrl 0x00000009).wf = true := by
  decide
theorem witness_EncodeDecodeAgree : decode (.mmio 0x1FC .word (.write 5)) = .ok (.wrChBank 7 0x1C 5) := by decide
/-- The first and the last byte of the window, the last aligned word, and a word that only reaches in. -/
theorem witness_OnlyAlignedWordAccessesAreDefined :
    Config.default.wf = true ∧
    TouchesWindow Config.default ⟨0x000, .byte, .read⟩ ∧ TouchesWindow Config.default ⟨0x1FF, .byte, .read⟩ ∧
    TouchesWindow Config.default ⟨0x1FC, .word, .read⟩ ∧ TouchesWindow Config.default ⟨0xFFFFFFFD, .word, .read⟩ :=
  ⟨by decide, ⟨0, by decide, by decide, by decide⟩, ⟨0, by decide, by decide, by decide⟩,
    ⟨0, by decide, by decide, by decide⟩, ⟨3, by decide, by decide, by decide⟩⟩
theorem witness_NoCommandRaisesAFault :
    Config.default.wf = true ∧
    step { State.reset with agenda := [.host ⟨0x002, .word, .read⟩] } = .fault .misaligned := ⟨by decide, rfl⟩
theorem witness_CommandWritesAreAcceptedOrDropped :
    State.reset.ctrlLatch = none ∧ State.reset.ctrlOvr = false ∧ State.reset.ctrlCode = .ok ∧
    (∃ t, exec (.wrCtrlCmd 0x0302) State.reset = .next t) ∧
    { State.reset with ctrlLatch := some 1 }.ctrlLatch = some 1 ∧ State.reset.outPhase = .idle ∧
    waiting.outPhase ≠ .idle := ⟨rfl, rfl, rfl, ⟨_, rfl⟩, rfl, rfl, by decide⟩
theorem witness_OperandRegisters :
    State.reset.ctrlLatch = none ∧ { State.reset with ctrlLatch := some 1 }.ctrlLatch = some 1 ∧
    State.reset.outPhase = .idle ∧ { State.reset with outPhase := .pending 0 }.outPhase ≠ .idle := by decide
theorem witness_StatusRegisters : (0x200 : Word).toNat / 512 % 2 = 1 ∧ (0x1FF : Word).toNat / 512 % 2 = 0 := by decide
theorem witness_ReadOnlyRegisters : reserved3.hw = some ⟨3, 1024⟩ ∧ State.reset.hw = none := by decide
theorem witness_ChannelBankAccess :
    playing64.ctrlLatch = none ∧ { playing64 with ctrlLatch := some 8 }.ctrlLatch = some 8 := by decide
theorem witness_ReservedOffsets :
    (0x0FC : BitVec 9).toNat % 4 = 0 ∧ (0x0FC : BitVec 9).toNat < 0x100 ∧
    (0x0FC : BitVec 9).toNat ∉ [0x000, 0x004, 0x008, 0x00C, 0x010, 0x014, 0x018, 0x01C, 0x020, 0x024, 0x040, 0x044,
      0x048, 0x050, 0x054, 0x058, 0x05C, 0x060] := by decide
/-- The first reserved opcode, the largest, and a reserved bit, on each port. -/
theorem witness_IllegalWordsOnlyComplete :
    8 < (0x00000009 : Word).toNat % 256 ∧ 8 < (0x000000FF : Word).toNat % 256 ∧ (0x00010000 : Word).toNat / 65536 ≠ 0 ∧
    3 < (0x00000004 : Word).toNat % 256 ∧ (0x00000100 : Word).toNat / 256 ≠ 0 := by decide
theorem witness_HandleChecks :
    8 ≤ (8 : BitVec 8).toNat ∧ 8 ≤ (255 : BitVec 8).toNat ∧
    (7 : BitVec 8).toNat = (7 : Fin 8).val ∧ (playing64.slot 7).state = .free := by decide
/-- The last slot is the only Free one; and none is. -/
theorem witness_AllocTakesTheLeastFreeSlot :
    ({ State.reset with slots := (Vector.replicate 8 player).set 7 Slot.freeSlot }.slot 7).state = .free ∧
    (∀ d < (7 : Fin 8),
      ({ State.reset with slots := (Vector.replicate 8 player).set 7 Slot.freeSlot }.slot d).state ≠ .free) ∧
    (∀ c : Fin 8, ({ State.reset with slots := Vector.replicate 8 player }.slot c).state ≠ .free) := by decide
theorem witness_FreeLeavesFreeSlot :
    (7 : BitVec 8).toNat = (7 : Fin 8).val ∧ State.reset.slot 7 = freeSlotValue ∧ 8 ≤ (8 : BitVec 8).toNat := by decide
theorem witness_SubmitStartsPlayback :
    (0 : BitVec 8).toNat = (0 : Fin 8).val ∧ (playing64.slot 0).state ≠ .free ∧ 8 ≤ (8 : BitVec 8).toNat ∧
    (7 : BitVec 8).toNat = (7 : Fin 8).val ∧ (playing64.slot 7).state = .free := by decide
theorem witness_SetVolumeStoresBothVolumes :
    (0 : BitVec 8).toNat = (0 : Fin 8).val ∧ (playing64.slot 0).state ≠ .free ∧ 8 ≤ (255 : BitVec 8).toNat ∧
    (1 : BitVec 8).toNat = (1 : Fin 8).val ∧ (playing64.slot 1).state = .free := by decide
theorem witness_FadeOutSetsTheStep :
    (0 : BitVec 8).toNat = (0 : Fin 8).val ∧ (playing64.slot 0).state ≠ .free ∧ playing64.ctrlArg0 = 0 ∧
    { playing64 with ctrlArg0 := 0xFFFFFFFF }.ctrlArg0 ≠ 0 ∧ 8 ≤ (8 : BitVec 8).toNat ∧
    (1 : BitVec 8).toNat = (1 : Fin 8).val ∧ (playing64.slot 1).state = .free := by decide
theorem witness_FadeInSetsTheStep :
    (0 : BitVec 8).toNat = (0 : Fin 8).val ∧ (playing64.slot 0).state ≠ .free ∧ playing64.ctrlArg0 = 0 ∧
    { playing64 with ctrlArg0 := 1 }.ctrlArg0 ≠ 0 ∧ 8 ≤ (8 : BitVec 8).toNat ∧
    (1 : BitVec 8).toNat = (1 : Fin 8).val ∧ (playing64.slot 1).state = .free := by decide
theorem witness_FailedCommandsHaveNoOtherEffect :
    ((Instr.submit 8).format = .ctrl32 ∧ exec (.submit 8) playing64 = .next (after (.submit 8) playing64) ∧
      (after (.submit 8) playing64).ctrlCode ≠ .ok) ∧
    (Instr.output.format = .out32 ∧ exec .output State.reset = .next (after .output State.reset) ∧
      (after .output State.reset).outPhase = .idle ∧ (after .output State.reset).outCode ≠ .ok) ∧
    { waiting with agenda := [.portAnswer 0 (.err 0x42)] }.outPhase =
      .awaitPort 0 (.output 3 0x8000 2048 0x8000 0x8000) :=
  ⟨⟨rfl, rfl, by decide⟩, ⟨rfl, rfl, by decide, by decide⟩, by decide⟩
theorem witness_ControlStepWritesTheFirstMatchingResult :
    { playing64 with ctrlLatch := some 0x00010903, agenda := [.ctrlEngine] }.ctrlLatch = some 0x00010903 ∧
    controlResult playing64 0x00010903 = .illegalCommand ∧ controlResult playing64 0x00000802 = .invalidChannel ∧
    controlResult playing64 0x00000704 = .invalidChannel ∧ controlResult playing64 0x00000702 = .ok ∧
    controlResult { playing64 with slots := Vector.replicate 8 player } 0x00000001 = .noFreeChannels := by decide
theorem witness_FadeInBeforeSubmitIsLost : exec (.fadeIn 0) playing64 = .next (after (.fadeIn 0) playing64) := rfl
theorem witness_SlotsChangeStateOnlyAsListed :
    step { playing64 with ctrlLatch := some 0x0002, agenda := [.ctrlEngine] } =
      .next (stepped { playing64 with ctrlLatch := some 0x0002, agenda := [.ctrlEngine] }) ∧
    ((stepped { playing64 with ctrlLatch := some 0x0002, agenda := [.ctrlEngine] }).slot 0).state ≠
      (playing64.slot 0).state ∧ playing64.ctrlLatch = none :=
  ⟨rfl, by decide, rfl⟩
theorem witness_GainFormula : (0 : Int) ≤ 32767 ∧ (0 : Int) ≤ 0x8000 ∧ (0 : Int) ≤ 256 := by decide
theorem witness_IntermediatesFitIn64Bits :
    |(-32768 : Int)| ≤ 2 ^ 15 ∧ |(-(2 ^ 31) : Int)| ≤ 2 ^ 31 ∧ (0 : Int) ≤ 256 ∧ (256 : Int) ≤ 2 ^ 8 ∧
    (0 : Int) ≤ 0x8000 ∧ (0x8000 : Int) ≤ 2 ^ 15 := by decide
theorem witness_UnityIsTheIdentity :
    (-32768 : Int) ≤ -16383 ∧ (-16383 : Int) ≤ 32767 ∧ |(-16383 : Int)| < 16384 ∧ |(16383 : Int)| < 16384 := by decide
theorem witness_MixMovesEverySlot : playing64.Inv ∧ ¬ ¬ Processed (playing64.slot 0) := ⟨playing64_inv, by decide⟩
theorem witness_MixCompletesAndItsFrame : OutsideOutput playing64 0x100 ∧ OutsideOutput playing64 0xFFFFFFFF := by
  unfold OutsideOutput; decide
/-- The first and the last output sample of the pass; and in the second machine an open sample. -/
theorem witness_MixWritesTheSaturatingSum :
    playing64.Inv ∧ playing64.sampleCount.toNat ≤ 2 ^ 30 ∧ (∃ t, exec (.mix 0) playing64 = .next t) ∧
    0 < playing64.sampleCount.toNat ∧ SourceStable playing64 0 .left ∧
    63 < playing64.sampleCount.toNat ∧ SourceStable playing64 63 .right ∧
    (playing64.setSlot 0 { player with hostWrites := [⟨0x1003, 1⟩] }).Inv ∧
    openSample (playing64.setSlot 0 { player with hostWrites := [⟨0x1003, 1⟩] }) 0 0 .right = true ∧
    openSample (playing64.setSlot 0 { player with hostWrites := [⟨0x1003, 1⟩] }) 0 0 .left = false := by
  have h : ∀ c : Fin 8, (playing64.slot c).hostWrites = [] := by decide
  have hs : ∀ i lane, SourceStable playing64 i lane := by
    intro i lane c q _ r hr
    rw [h c] at hr
    cases hr
  exact ⟨playing64_inv, by decide, mix_next _ _, by decide, hs _ _, by decide, hs _ _, by decide, by decide, by decide⟩
theorem witness_SilentPassWritesZeros :
    Memory.wf State.reset.mem = true ∧ (∀ c : Fin 8, ¬ Processed (State.reset.slot c)) ∧
    2047 < 2 * State.reset.sampleCount.toNat := by decide
theorem witness_ZeroSampleCountStillFades :
    (mixer 0 player).sampleCount = 0 ∧ Processed ((mixer 0 player).slot 0) ∧ ((mixer 0 player).slot 0).bufLen ≠ 0 ∧
    Processed ((mixer 0 { player with bufLen := 0 }).slot 0) ∧
    ((mixer 0 { player with bufLen := 0 }).slot 0).bufLen = 0 ∧
    levelAfter { player with state := .fadingOut, fadeStep := 0xFF000000 } = 0 ∧
    levelAfter { player with fadeStep := 1 } = 2 ^ 24 ∧ ¬ Processed ((mixer 0 player).slot 1) := by decide
/-- A looping slot at full level and FADE_OUT 3: three steps do not reach level 0, four do. -/
theorem witness_FadeOutLength :
    (0 : BitVec 8).toNat = (0 : Fin 8).val ∧
    (({ playing64 with ctrlArg0 := 3 }.setSlot 0 { player with looping := true }).slot 0).state ≠ .free ∧
    (({ playing64 with ctrlArg0 := 3 }.setSlot 0 { player with looping := true }).slot 0).looping = true ∧
    (({ playing64 with ctrlArg0 := 3 }.setSlot 0 { player with looping := true }).slot 0).bufLen ≠ 0 ∧
    (({ playing64 with ctrlArg0 := 3 }.setSlot 0 { player with looping := true }).slot 0).fadeLevel.toNat = 2 ^ 24 ∧
    ({ playing64 with ctrlArg0 := 3 }.setSlot 0 { player with looping := true }).ctrlArg0 ≠ 0 ∧
    exec (.fadeOut 0) ({ playing64 with ctrlArg0 := 3 }.setSlot 0 { player with looping := true }) =
      .next (after (.fadeOut 0) ({ playing64 with ctrlArg0 := 3 }.setSlot 0 { player with looping := true })) ∧
    3 * fadeStepSize .towardZero 3 < 2 ^ 24 ∧ 2 ^ 24 ≤ 4 * fadeStepSize .towardZero 3 :=
  ⟨by decide, by decide, by decide, by decide, by decide, by decide, rfl, by decide, by decide⟩
/-- A buffer of 4 frames and passes of 64: pass 1 already exhausts it. -/
theorem witness_ExhaustionTiming :
    playing64.Inv ∧ (playing64.slot 0).state = .playing ∧ (playing64.slot 0).looping = false ∧
    (playing64.slot 0).position = 0 ∧ playing64.sampleCount ≠ 0 ∧
    0 ≤ (playing64.slot 0).bufLen.toNat / playing64.sampleCount.toNat ∧
    (playing64.slot 0).bufLen.toNat / playing64.sampleCount.toNat < 1 :=
  ⟨playing64_inv, by decide⟩
/-- Two machines whose slot 0 differs in the right volume. -/
theorem witness_LanesAreIndependent :
    playing64.Inv ∧ (playing64.setSlot 0 { player with volR := 0 }).Inv ∧ playing64.sampleCount.toNat ≤ 2 ^ 30 ∧
    (∀ c : Fin 8, (playing64.slot c).hostWrites = [] ∧
      (playing64.setSlot 0 { player with volR := 0 }).slot c = { playing64.slot c with
        volR := ((playing64.setSlot 0 { player with volR := 0 }).slot c).volR }) ∧
    (∃ t, exec (.mix 0) playing64 = .next t) ∧
    (∃ t, exec (.mix 0) (playing64.setSlot 0 { player with volR := 0 }) = .next t) :=
  ⟨playing64_inv, by decide, by decide, by decide, mix_next _ _, mix_next _ _⟩
theorem witness_ReserveAsksThePort :
    (after .reserve reserved3).outPhase = .awaitPort 0 (.reserve 1024 .stereoS16) ∧
    { after .reserve reserved3 with agenda := [.portAnswer 0 (.ok 4)] }.agenda = .portAnswer 0 (.ok 4) :: [] ∧
    { after .reserve reserved3 with agenda := [.portAnswer 0 (.err 9)] }.agenda = .portAnswer 0 (.err 9) :: [] := by
  decide
theorem witness_ReleaseIsIdempotent :
    reserved3.hw = some ⟨3, 1024⟩ ∧ State.reset.hw = none ∧
    exec .release reserved3 = .next (after .release reserved3) := ⟨rfl, rfl, rfl⟩
/-- One sample short, and exactly long enough, with and without a reservation. -/
theorem witness_OutputChecksThenAsksThePort :
    { reserved3 with outArg1 := 2047 }.outArg1.toNat < 2 * reserved3.sampleCount.toNat ∧
    2 * reserved3.sampleCount.toNat ≤ reserved3.outArg1.toNat ∧ reserved3.hw = some ⟨3, 1024⟩ ∧
    { reserved3 with hw := none }.hw = none ∧
    waiting.outPhase = .awaitPort 0 (.output 3 0x8000 2048 0x8000 0x8000) := by decide
theorem witness_OnlyItsAnswerOrResetEndsAWait :
    waiting.outPhase = .awaitPort 0 (.output 3 0x8000 2048 0x8000 0x8000) ∧
    step { waiting with agenda := [.portAnswer 1 (.ok 0)] } = .next waiting ∧
    ¬ Resets { waiting with agenda := [.portAnswer 1 (.ok 0)] } ∧
    (∀ ans, { waiting with agenda := [.portAnswer 1 (.ok 0)] }.agenda.head? ≠ some (.portAnswer 0 ans)) ∧
    (∀ req, { State.reset with agenda := [.portAnswer 0 (.ok 0)] }.outPhase ≠ .awaitPort 0 req) :=
  ⟨by decide, rfl, fun h => (by cases h), fun _ h => (by cases h), fun _ h => (by cases h)⟩
theorem witness_PortsAreDisjoint :
    exec (.free 0) playing64 = .next (after (.free 0) playing64) ∧ (Instr.free 0).format = .ctrl32 ∧
    exec .reserve playing64 = .next (after .reserve playing64) ∧ Instr.reserve.format = .out32 := ⟨rfl, rfl, rfl, rfl⟩
theorem witness_EngineOrderDoesNotShow :
    (Instr.mix 0).format = .ctrl32 ∧ (∀ ch, Instr.mix 0 ≠ .setSampleCount ch) ∧ Instr.reserve.format = .out32 ∧
    (∃ t, exec (.mix 0) playing64 = .next t) ∧ (∃ u, exec .reserve playing64 = .next u) :=
  ⟨rfl, fun _ h => (by cases h), rfl, mix_next _ _, ⟨_, rfl⟩⟩
theorem witness_ReleasesAreOfTheHeldHandle :
    step { reserved3 with outPhase := .pending 2 } = .next (stepped { reserved3 with outPhase := .pending 2 }) ∧
    reserved3.hw = some ⟨3, 1024⟩ ∧ (stepped { reserved3 with outPhase := .pending 2 }).hw ≠ reserved3.hw :=
  ⟨rfl, rfl, by decide⟩
theorem witness_StepKeepsTheInvariant :
    playing64.Inv ∧ ∃ t, step { playing64 with ctrlLatch := some 8 } = .next t := ⟨playing64_inv, _, rfl⟩
/-- A MASTER_VOL write, a dropped write and a W1C write of OVR, an accepted word, and a completing one. -/
theorem witness_RegistersHaveTheirOwnWriters :
    step { State.reset with agenda := [.host ⟨0x018, .word, .write 0⟩] } =
      .next (stepped { State.reset with agenda := [.host ⟨0x018, .word, .write 0⟩] }) ∧
    (stepped { State.reset with agenda := [.host ⟨0x018, .word, .write 0⟩] }).masterVol ≠ State.reset.masterVol ∧
    (stepped { waiting with agenda := [.host ⟨0x044, .word, .write 0⟩] }).outOvr ≠ waiting.outOvr ∧
    (stepped { State.reset with ctrlOvr := true, agenda := [.host ⟨0x010, .word, .write 0x200⟩] }).ctrlOvr ≠ true ∧
    (stepped { State.reset with agenda := [.host ⟨0x000, .word, .write 9⟩] }).ctrlLatch ≠ State.reset.ctrlLatch ∧
    (stepped { State.reset with ctrlLatch := some 9 }).ctrlCode ≠ State.reset.ctrlCode :=
  ⟨rfl, by decide, by decide, by decide, by decide, by decide⟩
theorem witness_OnlyMixAndHostsWriteMemory :
    step { State.reset with agenda := [Prog.sh 0x8000 1] } =
      .next (stepped { State.reset with agenda := [Prog.sh 0x8000 1] }) ∧
    (stepped { State.reset with agenda := [Prog.sh 0x8000 1] }).mem ≠ State.reset.mem := ⟨rfl, by decide⟩
theorem witness_PendingCommandIsStable :
    step { State.reset with ctrlLatch := some 1, agenda := [Prog.wr Config.default 0x004 5] } =
      .next (stepped { State.reset with ctrlLatch := some 1, agenda := [Prog.wr Config.default 0x004 5] }) ∧
    (stepped { State.reset with ctrlLatch := some 1, agenda := [Prog.wr Config.default 0x004 5] }).ctrlLatch = some 1 :=
  ⟨rfl, by decide⟩
/-- With a window at 0x1000: the first address past it, and the last of memory; with no MIX pending and with
one, whose region holds the first byte read and not the second; the last byte of a slot's buffer, and the first
past it. -/
theorem witness_HostSampleAccess :
    { Config.default with mixerBase := 0x1000 }.wf = true ∧
    (¬ TouchesWindow { Config.default with mixerBase := 0x1000 } ⟨0x1200, .half, .write 1⟩) ∧
    Memory.wf State.reset.mem = true ∧
    (¬ TouchesWindow { Config.default with mixerBase := 0x1000 } ⟨0xFFFFFFFF, .half, .read⟩) ∧
    State.reset.ctrlLatch = none ∧
    (∀ k < 2, OutsideOutput { playing64 with ctrlLatch := some 8, ctrlArg0 := 0x8000 } ((0xFFFFFFFF + k) % 2 ^ 32)) ∧
    SeesByte { playing64 with ctrlLatch := some 8, ctrlArg0 := 0xFFFFFF00 } 0xFFFFFFFF 0 (freeByte 0) 1 ∧
    SeesByte { playing64 with ctrlLatch := some 8, ctrlArg0 := 0xFFFFFF00 } 0 1 0 1 ∧
    (playing64.slot 0).state ≠ .free ∧ Meets (playing64.slot 0).buffer ⟨0x100F, 2⟩ ∧
    ¬ Meets (playing64.slot 0).buffer ⟨0x1010, 2⟩ := by
  have h1 : ¬ OutsideOutput { playing64 with ctrlLatch := some 8, ctrlArg0 := 0xFFFFFF00 } 0xFFFFFFFF := by
    unfold OutsideOutput; decide
  have h2 : OutsideOutput { playing64 with ctrlLatch := some 8, ctrlArg0 := 0xFFFFFF00 } 0 := by
    unfold OutsideOutput; decide
  refine ⟨by decide, ?_, by decide, ?_, rfl, by unfold OutsideOutput; decide,
    ⟨fun _ => ⟨rfl, rfl⟩, fun h => absurd ⟨⟨8, 0, rfl, by decide⟩, h1⟩ h⟩,
    ⟨fun h => absurd h2 h.2, fun _ => ⟨by decide, rfl⟩⟩, by decide, ?_, ?_⟩
  · rintro ⟨k, hk, _, h⟩
    change k < 2 at hk
    change (0x1200 + k) % 2 ^ 32 < 0x1000 + 0x200 at h
    omega
  · rintro ⟨k, hk, h1, h2⟩
    change k < 2 at hk
    change 0x1000 ≤ (0xFFFFFFFF + k) % 2 ^ 32 at h1
    change (0xFFFFFFFF + k) % 2 ^ 32 < 0x1000 + 0x200 at h2
    omega
  · exact ⟨0x100F, by unfold OutsideRegion; decide, by unfold OutsideRegion; decide⟩
  · rintro ⟨x, hx, hy⟩
    have := x.isLt
    change ¬ 16 ≤ (x.toNat + (2 ^ 32 - 0x1000)) % 2 ^ 32 at hx
    change ¬ 2 ≤ (x.toNat + (2 ^ 32 - 0x1010)) % 2 ^ 32 at hy
    omega

/-- The last byte of the handed buffer, untouched, and the first past it; a host's write and a MIX meanwhile. -/
theorem witness_PortReadsTheHandedBuffer :
    { waiting with agenda := [.portRead 0x8FFF] }.agenda = .portRead 0x8FFF :: [] ∧
    waiting.outPhase = .awaitPort 0 (.output 3 0x8000 2048 0x8000 0x8000) ∧
    ¬ OutsideRegion ⟨0x8000, 2 * 2048⟩ 0x8FFF ∧ (∀ q ∈ waiting.outTouched, OutsideRegion q 0x8FFF) ∧
    waiting.ctrlLatch = none ∧ OutsideRegion ⟨0x8000, 2 * 2048⟩ 0x9000 ∧
    (∃ q ∈ { waiting with outTouched := [⟨0x8FFE, 2⟩] }.outTouched, ¬ OutsideRegion q 0x8FFF) ∧
    InPendingMix { waiting with ctrlLatch := some 8, ctrlArg0 := 0x8000 } 0x8FFF ∧
    State.reset.outPhase = .idle ∧ Config.default.wf = true ∧
    OutputInProgress waiting ∧ OutputInProgress { State.reset with outPhase := .pending 3 } ∧
    ¬ TouchesWindow Config.default ⟨0x8000, .byte, .write 1⟩ := by
  refine ⟨rfl, by decide, by unfold OutsideRegion; decide, fun q h => (by cases h), by decide,
    by unfold OutsideRegion; decide, ⟨⟨0x8FFE, 2⟩, by decide, by unfold OutsideRegion; decide⟩,
    ⟨⟨8, 0, rfl, by decide⟩, by unfold OutsideOutput; decide⟩, rfl, by decide, .inr ⟨0, 3, 0x8000, 2048, 0x8000, 0x8000, by decide⟩,
    .inl ⟨3, rfl, by decide⟩, ?_⟩
  rintro ⟨k, hk, _, h⟩
  change k < 1 at hk
  change (0x8000 + k) % 2 ^ 32 < 0 + 0x200 at h
  omega

end Sys2Proof.Tests
end

section
/-! SUPPORT. Inversion of a step: one inductive for each agent, that lists everything the agent's step can leave of
the state, and `StepEffect`, that says which agent has stepped and why it could. -/

namespace Sys2Proof.Machine

open Sys2Proof.Statements

/-! ### What a control command leaves -/

/-- All the ways a control command can end (R97, R128, R150 to R156, R180, R181). -/
inductive ControlEffect (s : State) : Instr → State → Prop
  /-- NOP, and every command that fails: nothing but the end of the command. -/
  | ended (i : Instr) (code : ResultCode) (hcode : code ∈ ctrlResults) : ControlEffect s i (s.completeCtrl code)
  | allocated (ch : BitVec 8) (c : Fin 8) (hfirst : s.firstFree = some c) :
      ControlEffect s (.alloc ch)
        ({ s.setSlot c (allocatedSlot s) with ctrlResult := BitVec.ofNat 32 c }.completeCtrl .ok)
  | freed (h : BitVec 8) (c : Fin 8) (hc : h.toNat = c.val) :
      ControlEffect s (.free h) ((s.setSlot c Slot.freeSlot).completeCtrl .ok)
  | submitted (h : BitVec 8) (c : Fin 8) (hc : h.toNat = c.val) (hused : (s.slot c).state ≠ .free) :
      ControlEffect s (.submit h)
        ((s.setSlot c (submittedSlot s.argBase s.argFrames (s.slot c))).completeCtrl .ok)
  | volumeSet (h : BitVec 8) (c : Fin 8) (l r : Word) (hc : h.toNat = c.val) (hused : (s.slot c).state ≠ .free) :
      ControlEffect s (.setVolume h) ((s.setSlot c (volumeSlot l r (s.slot c))).completeCtrl .ok)
  | fadedOut (h : BitVec 8) (c : Fin 8) (hc : h.toNat = c.val) (hused : (s.slot c).state ≠ .free) :
      ControlEffect s (.fadeOut h)
        ((s.setSlot c (fadedOutSlot s.cfg.divRounding s.argCount (s.slot c))).completeCtrl .ok)
  | fadedIn (h : BitVec 8) (c : Fin 8) (hc : h.toNat = c.val) (hused : (s.slot c).state ≠ .free) :
      ControlEffect s (.fadeIn h)
        ((s.setSlot c (fadedInSlot s.cfg.divRounding s.argCount (s.slot c))).completeCtrl .ok)
  | counted (ch : BitVec 8) :
      ControlEffect s (.setSampleCount ch)
        ({ s with sampleCount := sampleCountFor s.cfg s.argCount }.completeCtrl .ok)
  | mixed (ch : BitVec 8) (v : Vector Slot 8) (d : Nat) (fs : List AccFrame)
      (hslots : ∀ c : Fin 8, v[c] = mixedSlot s.cfg.loopWrapGap s.sampleCount.toNat (s.slot c)) :
      ControlEffect s (.mix ch)
        (({ s with slots := v, draws := d,
                   mem := writeFrames s.cfg.sampleEndian s.mem s.argBase.toNat fs } : State).noteOutputWrite
          s.mixRegion |>.completeCtrl .ok)

/-- A channel command ends as rejected, or with its change of the slot that its handle names (R150). -/
theorem ControlEffect.of_channelCommand {i : Instr} {rejectFree : Bool} {h : BitVec 8} {s t : State}
    {f : Slot → Slot} (e : channelCommand rejectFree h s f = .next t)
    (hdone : ∀ c : Fin 8, h.toNat = c.val → (rejectFree = true → (s.slot c).state ≠ .free) →
      ControlEffect s i ((s.setSlot c (f (s.slot c))).completeCtrl .ok)) : ControlEffect s i t := by
  rcases channelCommand_cases rejectFree h s f with ⟨hh, hfree, e'⟩ | ⟨-, e'⟩
  · rw [e'] at e
    cases e
    exact hdone ⟨h.toNat, hh⟩ rfl (fun hr hs => hfree ⟨hr, hs⟩)
  · rw [e'] at e
    cases e
    exact .ended i _ (by decide)

theorem controlEffect_of_exec {i : Instr} {s t : State} (hi : i.format = .ctrl32) (e : exec i s = .next t) :
    ControlEffect s i t := by
  cases i
  case nop | illegalCtrl => cases e; exact .ended _ _ (by decide)
  case alloc ch =>
    simp only [exec, execAlloc] at e
    split at e
    · cases e; exact .ended _ _ (by decide)
    · next c hc => cases e; exact .allocated ch c hc
  case free h =>
    simp only [exec, execFree] at e
    exact .of_channelCommand e (fun c hc _ => .freed h c hc)
  case submit h =>
    simp only [exec, execSubmit] at e
    exact .of_channelCommand e (fun c hc hu => .submitted h c hc (hu rfl))
  case setVolume h =>
    simp only [exec, execSetVolume] at e
    exact .of_channelCommand e (fun c hc hu => .volumeSet h c _ _ hc (hu rfl))
  case fadeOut h =>
    simp only [exec, execFadeOut] at e
    exact .of_channelCommand e (fun c hc hu => .fadedOut h c hc (hu rfl))
  case fadeIn h =>
    simp only [exec, execFadeIn] at e
    exact .of_channelCommand e (fun c hc hu => .fadedIn h c hc (hu rfl))
  case setSampleCount ch => cases e; exact .counted ch
  case mix ch =>
    obtain ⟨v, d, fs, e', -, -, hv⟩ := execMix_cases ch s
    cases e'.symm.trans e
    exact .mixed ch v d fs hv
  all_goals nomatch hi

/-! ### What an output-port command leaves -/

/-- All the ways the OUT engine's step can end (R97, R212, R214 to R216). -/
inductive OutputEffect (s : State) : Instr → State → Prop
  /-- ONOP, and every command that fails: nothing but the end of the command. -/
  | ended (i : Instr) (code : ResultCode) (hcode : code ∈ outResults) : OutputEffect s i (s.completeOut code)
  | requested (i : Instr) (req : PortReq) : OutputEffect s i (s.portCall req)
  | released : OutputEffect s .release (({ s with hw := none }.releaseOld s.hw).completeOut .ok)

theorem outputEffect_of_exec {i : Instr} {s t : State} (hi : i.format = .out32) (e : exec i s = .next t) :
    OutputEffect s i t := by
  cases i
  case onop | illegalOut => cases e; exact .ended _ _ (by decide)
  case reserve => cases e; exact .requested ..
  case release => cases e; exact .released
  case output =>
    simp only [exec, execOutput] at e
    split at e
    · cases e; exact .ended _ _ (by decide)
    · split at e
      · cases e; exact .ended _ _ (by decide)
      · cases e; exact .requested ..
  all_goals nomatch hi

/-! ### What a register access leaves -/

/-- All a register access can do (R43, R120 to R134). -/
inductive AccessEffect (s : State) : Instr → State → Prop
  /-- Every read but that of CTRL_LOCK, and every ignored write. -/
  | answered (i : Instr) (v : Word) (d : Nat) : AccessEffect s i { s with readData := v, draws := d }
  | ctrlDropped (i : Instr) (hbusy : s.ctrlLatch ≠ none)
      (hi : ∃ w, i = .wrCtrlCmd w ∨ i = .wrCtrlArg0 w ∨ i = .wrCtrlArg1 w ∨ i = .wrCtrlArg2 w) :
      AccessEffect s i { s with ctrlOvr := true }
  | ctrlAccepted (w : Word) (hidle : s.ctrlLatch = none) :
      AccessEffect s (.wrCtrlCmd w) { s with ctrlLatch := some w }
  | ctrlArg0 (w : Word) : AccessEffect s (.wrCtrlArg0 w) { s with ctrlArg0 := w }
  | ctrlArg1 (w : Word) : AccessEffect s (.wrCtrlArg1 w) { s with ctrlArg1 := w }
  | ctrlArg2 (w : Word) : AccessEffect s (.wrCtrlArg2 w) { s with ctrlArg2 := w }
  | ctrlStatus (w : Word) : AccessEffect s (.wrCtrlStatus w) { s with ctrlOvr := ovrAfterWrite s.ctrlOvr w }
  | masterVol (w : Word) : AccessEffect s (.wrMasterVol w) { s with masterVol := masterVolIn w }
  | lockWritten (w : Word) : AccessEffect s (.wrCtrlLock w) { s with lockHeld := w.getLsbD 0 }
  | lockTaken (v : Word) : AccessEffect s .rdCtrlLock { s with lockHeld := true, readData := v }
  | outDropped (i : Instr) (hbusy : s.outPhase ≠ .idle)
      (hi : ∃ w, i = .wrOutCmd w ∨ i = .wrOutArg0 w ∨ i = .wrOutArg1 w) :
      AccessEffect s i { s with outOvr := true }
  | outAccepted (w : Word) (hidle : s.outPhase = .idle) :
      AccessEffect s (.wrOutCmd w) { s with outPhase := .pending w, outTouched := [] }
  | outArg0 (w : Word) : AccessEffect s (.wrOutArg0 w) { s with outArg0 := w }
  | outArg1 (w : Word) : AccessEffect s (.wrOutArg1 w) { s with outArg1 := w }
  | outStatus (w : Word) : AccessEffect s (.wrOutStatus w) { s with outOvr := ovrAfterWrite s.outOvr w }

/-- A bank read answers, whether CTRL is busy or not (R127). -/
theorem AccessEffect.bankRead (i : Instr) (s : State) (v : Word) : AccessEffect s i (s.bankRead v) := by
  unfold State.bankRead
  split
  · exact .answered i _ _
  · exact .answered i v s.draws

/-- A write to a command or operand register of the CTRL port is dropped or done (R121, R123). -/
theorem AccessEffect.ctrlPortWrite {i : Instr} {s u : State}
    (hi : ∃ w, i = .wrCtrlCmd w ∨ i = .wrCtrlArg0 w ∨ i = .wrCtrlArg1 w ∨ i = .wrCtrlArg2 w)
    (hdone : s.ctrlLatch = none → AccessEffect s i u) : AccessEffect s i (s.ctrlPortWrite u) := by
  unfold State.ctrlPortWrite
  split
  · next hb => exact .ctrlDropped i (fun h => by simp [State.ctrlBusy, h] at hb) hi
  · next hb => exact hdone (by simpa [State.ctrlBusy] using hb)

/-- A write to a command or operand register of the OUT port is dropped or done (R121, R123). -/
theorem AccessEffect.outPortWrite {i : Instr} {s u : State}
    (hi : ∃ w, i = .wrOutCmd w ∨ i = .wrOutArg0 w ∨ i = .wrOutArg1 w)
    (hdone : s.outPhase = .idle → AccessEffect s i u) : AccessEffect s i (s.outPortWrite u) := by
  unfold State.outPortWrite
  split
  · next hb => exact .outDropped i (by simpa [State.outBusy] using hb) hi
  · next hb => exact hdone (by simpa [State.outBusy] using hb)

theorem accessEffect_of_exec {i : Instr} {s t : State} (hi : i.format = .mmio) (e : exec i s = .next t) :
    AccessEffect s i t := by
  cases i
  case wrCtrlCmd w => cases e; exact .ctrlPortWrite ⟨w, by simp⟩ (.ctrlAccepted w)
  case wrCtrlArg0 w => cases e; exact .ctrlPortWrite ⟨w, by simp⟩ (fun _ => .ctrlArg0 w)
  case wrCtrlArg1 w => cases e; exact .ctrlPortWrite ⟨w, by simp⟩ (fun _ => .ctrlArg1 w)
  case wrCtrlArg2 w => cases e; exact .ctrlPortWrite ⟨w, by simp⟩ (fun _ => .ctrlArg2 w)
  case wrOutCmd w => cases e; exact .outPortWrite ⟨w, by simp⟩ (.outAccepted w)
  case wrOutArg0 w => cases e; exact .outPortWrite ⟨w, by simp⟩ (fun _ => .outArg0 w)
  case wrOutArg1 w => cases e; exact .outPortWrite ⟨w, by simp⟩ (fun _ => .outArg1 w)
  case wrCtrlStatus w => cases e; exact .ctrlStatus w
  case wrOutStatus w => cases e; exact .outStatus w
  case wrMasterVol w => cases e; exact .masterVol w
  case wrCtrlLock w => cases e; exact .lockWritten w
  case rdCtrlLock => cases e; exact .lockTaken _
  case rdChState | rdChVolL | rdChVolR | rdChBufBase | rdChBufLen | rdChPosition | rdChFadeLevel | rdChFadeStep =>
    cases e; exact .bankRead ..
  case reserved off a => cases a <;> (cases e; exact .answered _ _ s.draws)
  case wrCtrlResult | wrSampleCount | wrConfig | wrOutErrcode | wrHwState | wrHwHandle | wrHwFrames | wrChBank =>
    cases e; exact .answered _ s.readData s.draws
  case rdCtrlCmd | rdCtrlArg0 | rdCtrlArg1 | rdCtrlArg2 | rdCtrlStatus | rdCtrlResult | rdMasterVol
      | rdSampleCount | rdConfig | rdOutCmd | rdOutArg0 | rdOutArg1 | rdOutStatus | rdOutErrcode | rdHwState
      | rdHwHandle | rdHwFrames =>
    cases e; exact .answered _ _ s.draws
  all_goals nomatch hi

/-! ### What an answer of the Port leaves -/

/-- All an answer to the request numbered `id` can do (R212, R216, R218, R262). -/
inductive AnswerEffect (s : State) (id : Nat) : PortAnswer → State → Prop
  | ignored (ans : PortAnswer) : AnswerEffect s id ans s
  | failed (req : PortReq) (code : Word) (hwait : s.outPhase = .awaitPort id req) :
      AnswerEffect s id (.err code) (s.audioError code)
  | reserved (frames : Word) (format : PortFormat) (h : Word)
      (hwait : s.outPhase = .awaitPort id (.reserve frames format)) :
      AnswerEffect s id (.ok h) (({ s with hw := some ⟨h, frames⟩ }.releaseOld s.hw).completeOut .ok)
  | played (req : PortReq) (h : Word) (hwait : s.outPhase = .awaitPort id req) :
      AnswerEffect s id (.ok h) (s.completeOut .ok)

theorem portAnswer_effect (s : State) (id : Nat) (ans : PortAnswer) :
    AnswerEffect s id ans (s.portAnswer id ans) := by
  unfold State.portAnswer
  split
  · next k req hwait =>
    split
    · next hk =>
      subst hk
      cases req <;> cases ans
      case reserve.ok frames format h => exact .reserved frames format h hwait
      case output.ok h => exact .played _ h hwait
      case reserve.err | output.err => exact .failed _ _ hwait
    · exact .ignored ans
  · exact .ignored ans

/-! ### The format of what each agent runs -/

theorem decodeCtrl_format (w : Word) : (decodeCtrl w).format = .ctrl32 := by
  unfold decodeCtrl
  split
  · rfl
  · dsimp only
    split <;> rfl

theorem decodeOut_format (w : Word) : (decodeOut w).format = .out32 := by
  unfold decodeOut
  split
  · rfl
  · split <;> rfl

/-- The word-aligned offsets below the bank, by number. -/
theorem exists_register_number {off : BitVec 9} (hal : off.toNat % 4 = 0) (hlt : off.toNat < 0x100) :
    ∃ k < 64, off.toNat = 4 * k := ⟨off.toNat / 4, by omega, by omega⟩

/-- The offsets are taken one by one: the match of `decodeRegister` is too large to split. -/
theorem decodeRegister_format {off : BitVec 9} (a : Access) (hal : off.toNat % 4 = 0) (hlt : off.toNat < 0x100) :
    (decodeRegister off a).format = .mmio := by
  obtain ⟨k, hk64, hk⟩ := exists_register_number hal hlt
  unfold decodeRegister
  rw [hk]
  interval_cases k
  all_goals cases a <;> rfl

theorem decodeBank_format (off : BitVec 9) (a : Access) : (decodeBank off a).format = .mmio := by
  unfold decodeBank
  cases a with
  | write w => rfl
  | read =>
    dsimp only
    split <;> rfl

/-- An access that decodes is an aligned 32-bit one, and is a register access (R66). -/
theorem decodeMmio_ok {off : BitVec 9} {width : Width} {a : Access} {i : Instr}
    (h : decodeMmio off width a = .ok i) : width = .word ∧ off.toNat % 4 = 0 ∧ i.format = .mmio := by
  unfold decodeMmio at h
  split at h
  · nomatch h
  · next hw =>
    split at h
    · nomatch h
    · next ho =>
      have hal : off.toNat % 4 = 0 := by simpa using ho
      refine ⟨by simpa using hw, hal, ?_⟩
      split at h
      · next hlt => cases h; exact decodeRegister_format a hal hlt
      · cases h; exact decodeBank_format off a

/-- A 32-bit access that meets the window at a multiple of 4 from its base lies in it (R23, log 15). -/
theorem window_address {cfg : Config} {addr : Word}
    (hin : (windowOf cfg).overlaps ⟨addr, Width.bytes .word⟩ = true)
    (hal : ((addr - cfg.mixerBase).setWidth 9 : BitVec 9).toNat % 4 = 0) :
    addr = cfg.mixerBase + ((addr - cfg.mixerBase).setWidth 9 : BitVec 9).setWidth 32 := by
  have ha := addr.isLt
  have hb := cfg.mixerBase.isLt
  simp only [Region.overlaps, Bool.or_eq_true, Bool.and_eq_true, Region.contains_iff, windowOf, windowSize,
    Width.bytes] at hin
  apply BitVec.eq_of_toNat_eq
  simp only [BitVec.toNat_setWidth, BitVec.toNat_sub, BitVec.toNat_add] at hal ⊢
  omega

/-! ### What a step leaves -/

/-- All a step can do, with what it takes for each agent to be the one that steps. `a` are the events left,
`d` is the draw counter after the pick between two enabled engines (log 2). -/
inductive StepEffect (s : State) : State → Prop
  /-- An engine has nothing to do (log 19). -/
  | waited (a : List Event) (d : Nat) : StepEffect s { s with agenda := a, draws := d }
  | control (i : Instr) (a : List Event) (d : Nat) (t : State) (hrun : RunsControl s i)
      (heff : ControlEffect { s with agenda := a, draws := d } i t) : StepEffect s t
  | output (i : Instr) (a : List Event) (d : Nat) (t : State) (hrun : RunsOutput s i)
      (heff : OutputEffect { s with agenda := a, draws := d } i t) : StepEffect s t
  | access (i : Instr) (a : List Event) (t : State) (hrun : AccessesRegister s i)
      (heff : AccessEffect { s with agenda := a } i t) : StepEffect s t
  | loaded (a : List Event) (addr : Word) (width : Width)
      (hev : s.agenda.head? = some (.host ⟨addr, width, .read⟩)) :
      StepEffect s (State.hostLoad { s with agenda := a } addr width)
  | stored (a : List Event) (addr : Word) (width : Width) (v : Word)
      (hev : s.agenda.head? = some (.host ⟨addr, width, .write v⟩))
      (hout : (windowOf s.cfg).overlaps ⟨addr, width.bytes⟩ = false) :
      StepEffect s (State.hostStore { s with agenda := a } addr width v)
  | answered (a : List Event) (id : Nat) (ans : PortAnswer) (t : State)
      (hev : s.agenda.head? = some (.portAnswer id ans))
      (heff : AnswerEffect { s with agenda := a } id ans t) : StepEffect s t
  | portRead (a : List Event) (addr : Word) (v : Byte) (d : Nat) (hev : s.agenda.head? = some (.portRead addr)) :
      StepEffect s { s with agenda := a, portData := v, draws := d }
  | reset (a : List Event) (hev : Resets s) : StepEffect s (State.applyReset { s with agenda := a })

/-- The CTRL engine's step, from an empty agenda or as the next event. -/
theorem StepEffect.of_ctrlStep {s t : State} {a : List Event} {d : Nat}
    (hev : s.agenda = [] ∨ s.agenda.head? = some .ctrlEngine)
    (e : ctrlStep { s with agenda := a, draws := d } = .next t) : StepEffect s t := by
  cases hw : s.ctrlLatch with
  | none =>
    rw [ctrlStep_empty (s := { s with agenda := a, draws := d }) hw] at e
    cases e
    exact .waited a d
  | some w =>
    rw [ctrlStep_full (s := { s with agenda := a, draws := d }) hw] at e
    exact .control (decodeCtrl w) a d t ⟨hev, w, hw, rfl⟩ (controlEffect_of_exec (decodeCtrl_format w) e)

/-- The OUT engine's step, from an empty agenda or as the next event. -/
theorem StepEffect.of_outStep {s t : State} {a : List Event} {d : Nat}
    (hev : s.agenda = [] ∨ s.agenda.head? = some .outEngine)
    (e : outStep { s with agenda := a, draws := d } = .next t) : StepEffect s t := by
  by_cases hp : ∃ w, s.outPhase = .pending w
  · obtain ⟨w, hw⟩ := hp
    rw [outStep_pending (s := { s with agenda := a, draws := d }) hw] at e
    exact .output (decodeOut w) a d t ⟨hev, w, hw, rfl⟩ (outputEffect_of_exec (decodeOut_format w) e)
  · have hquiet : State.outPending { s with agenda := a, draws := d } = false := by
      unfold State.outPending
      split
      · next w hw => exact absurd ⟨w, hw⟩ hp
      · rfl
    rw [outStep_other hquiet] at e
    cases e
    exact .waited a d

/-- A host's access as the next event: a register access, or one to bus memory. -/
theorem StepEffect.of_hostAccess {s t : State} {a : List Event} {acc : BusAccess}
    (hev : s.agenda.head? = some (.host acc)) (e : hostAccess acc { s with agenda := a } = .next t) :
    StepEffect s t := by
  obtain ⟨addr, width, access⟩ := acc
  unfold hostAccess at e
  split at e
  · next hin =>
    unfold execRaw at e
    split at e
    · next i hi =>
      obtain ⟨hword, hal, hfmt⟩ := decodeMmio_ok hi
      cases (show width = .word from hword)
      exact .access i a t ⟨_, access, hev.trans (congrArg (fun x => some (Event.host ⟨x, .word, access⟩))
        (window_address hin hal)), hi⟩ (accessEffect_of_exec hfmt e)
    · nomatch e
  · next hout =>
    cases access with
    | read => cases e; exact .loaded a addr width hev
    | write v => cases e; exact .stored a addr width v hev (by simpa using hout)

theorem step_effect {s t : State} (e : step s = .next t) : StepEffect s t := by
  cases hag : s.agenda with
  | nil =>
    rw [step_idle hag] at e
    rcases idleStep_cases s with ⟨-, h | h⟩ | ⟨-, -, h⟩ | ⟨-, h⟩ <;> rw [h] at e
    · exact .of_ctrlStep (.inl hag) e
    · exact .of_outStep (.inl hag) e
    · exact .of_ctrlStep (.inl hag) e
    · exact .of_outStep (.inl hag) e
  | cons ev rest =>
    have hhead : s.agenda.head? = some ev := by rw [hag]; rfl
    rw [step_event hag] at e
    cases ev with
    | host acc => exact .of_hostAccess hhead e
    | ctrlEngine => exact .of_ctrlStep (.inr hhead) e
    | outEngine => exact .of_outStep (.inr hhead) e
    | portAnswer id ans => cases e; exact .answered rest id ans _ hhead (portAnswer_effect ..)
    | portRead addr =>
      cases e
      obtain ⟨v, d, h⟩ := portLoad_cases { s with agenda := rest } addr
      rw [h]
      exact .portRead rest addr v d hhead
    | reset => cases e; exact .reset rest hhead

end Sys2Proof.Machine
end

section
/-! SUPPORT. The family of 10_state.md: what steps do to the state of a slot (R38). -/

namespace Sys2Proof.Machine

open Sys2Proof.Statements

/-! ### What a pass can do to the state of a slot -/

theorem Slot.active_iff {sl : Slot} : sl.active = true ↔ sl.state = .playing ∨ sl.state = .fadingOut := by
  simp [Slot.active]

/-- The cursor ends a slot only where a buffer that does not loop runs out before the pass does (R183). -/
theorem cursorLoop_state_ne {gap : Bool} {sl : Slot} {n : Nat} (h : (cursorLoop gap sl n).state ≠ sl.state) :
    sl.looping = false ∧ sl.bufLen.toNat < sl.position.toNat + n := by
  induction n generalizing sl with
  | zero => exact absurd rfl h
  | succ n ih =>
    simp only [cursorLoop] at h
    split at h
    · next hend =>
      split at h
      · next hloop =>
        split at h <;> exact absurd (ih h).1 (by simp [hloop])
      · next hloop => exact ⟨by simpa using hloop, by omega⟩
    · next hlt =>
      obtain ⟨hloop, hlen⟩ := ih h
      refine ⟨hloop, ?_⟩
      have hpos : (sl.position + 1).toNat = (sl.position.toNat + 1) % 2 ^ 32 := BitVec.toNat_add ..
      dsimp only at hlen
      omega

/-- A level is faded out exactly if the exact sum is not positive (R188). -/
theorem nextLevel_eq_zero {sl : Slot} : nextLevel sl = 0 ↔ (sl.fadeLevel.toNat : Int) + sl.fadeStep.toInt ≤ 0 := by
  unfold nextLevel clamp fadeFull
  split
  · omega
  · split <;> omega

/-- The transitions of MIX (R38): a slot it processes becomes Idle because its buffer is empty or has run out, or
because it is faded out. -/
theorem mixedSlot_state_ne {gap : Bool} {sl : Slot} {n : Nat} (h : (mixedSlot gap n sl).state ≠ sl.state) :
    (sl.state = .playing ∨ sl.state = .fadingOut) ∧ (mixedSlot gap n sl).state = .idle ∧
      (sl.bufLen = 0 ∨ (sl.looping = false ∧ sl.bufLen.toNat < sl.position.toNat + n) ∨
        (sl.state = .fadingOut ∧ (sl.fadeLevel.toNat : Int) + sl.fadeStep.toInt ≤ 0)) := by
  unfold mixedSlot at h ⊢
  split at h
  · exact absurd rfl h
  · next hact =>
    rw [if_neg hact]
    have hproc := Slot.active_iff.mp (by simpa using hact)
    split at h
    · next hlen => exact ⟨hproc, by rw [if_pos hlen], .inl (BitVec.eq_of_toNat_eq hlen)⟩
    · next hlen =>
      rw [if_neg hlen]
      obtain ⟨p, st, hcur, hst, -⟩ := cursorLoop_cases gap sl n hlen
      obtain ⟨st', step, hupd, hst', -⟩ := fadeUpdate_cases (cursorLoop gap sl n)
      rw [hupd] at h ⊢
      rcases hst' with ⟨hidle, hfading, hlvl⟩ | hkept
      · rw [nextLevel_eq_zero, hcur] at hlvl
        rcases hst with hsame | hended
        · exact ⟨hproc, hidle, .inr (.inr ⟨by rw [← hsame, ← hfading, hcur], hlvl⟩)⟩
        · rw [hcur] at hfading
          cases hended.symm.trans hfading
      · have hne : (cursorLoop gap sl n).state ≠ sl.state := fun he => h (hkept.trans he)
        refine ⟨hproc, ?_, .inr (.inl (cursorLoop_state_ne hne))⟩
        rw [hcur] at hne hkept
        exact hkept.trans (hst.resolve_left hne)

/-! ### What a step can do to the state of a slot -/

/-- A slot whose state differs after another was stored is the one stored. -/
theorem State.eq_of_setSlot_state_ne {s : State} {c d : Fin 8} {sl : Slot}
    (h : ((s.setSlot d sl).slot c).state ≠ (s.slot c).state) : d = c := by
  by_contra hne
  exact h (by rw [s.slot_setSlot_other sl hne])

/-- A command that stores one slot changes no other's state, and that one's as the stored slot says. -/
theorem setSlot_mayBecome {s : State} {c d : Fin 8} {i : Instr} {sl : Slot}
    (hne : ((s.setSlot d sl).slot c).state ≠ (s.slot c).state)
    (h : sl.state ≠ (s.slot d).state → MayBecome s d i sl.state) :
    MayBecome s c i ((s.setSlot d sl).slot c).state := by
  obtain rfl := s.eq_of_setSlot_state_ne hne
  rw [s.slot_setSlot_same] at hne ⊢
  exact h hne

theorem ControlEffect.mayBecome {s t : State} {i : Instr} {c : Fin 8} (e : ControlEffect s i t)
    (hne : (t.slot c).state ≠ (s.slot c).state) : MayBecome s c i (t.slot c).state := by
  cases e with
  | ended => exact absurd rfl hne
  | counted => exact absurd rfl hne
  | allocated ch d hfirst =>
    obtain ⟨hfree, hleast⟩ := firstFree_eq_some.mp hfirst
    exact setSlot_mayBecome hne fun _ => ⟨hfree, rfl, hleast⟩
  | freed h d hd => exact setSlot_mayBecome hne fun _ => ⟨hd, rfl⟩
  | submitted h d hd hused => exact setSlot_mayBecome hne fun _ => ⟨hd, hused, rfl⟩
  | volumeSet h d l r hd hused => exact setSlot_mayBecome hne fun hsl => absurd rfl hsl
  | fadedOut h d hd hused =>
    refine setSlot_mayBecome hne fun _ => ⟨hd, hused, ?_⟩
    unfold fadedOutSlot
    split
    · next hn => exact .inl ⟨BitVec.eq_of_toNat_eq hn, rfl⟩
    · next hn => exact .inr ⟨fun h0 => hn (by rw [State.argCount, h0]; rfl), rfl⟩
  | fadedIn h d hd hused =>
    refine setSlot_mayBecome hne fun hsl => absurd ?_ hsl
    unfold fadedInSlot
    split <;> rfl
  | mixed ch v d fs hslots =>
    have hslot : ∀ u : State, u.slots = v →
        u.slot c = mixedSlot s.cfg.loopWrapGap s.sampleCount.toNat (s.slot c) := by
      rintro u rfl
      exact hslots c
    rw [hslot _ (by simp)] at hne ⊢
    exact mixedSlot_state_ne hne

/-- The OUT engine changes no slot. -/
theorem OutputEffect.slots {s t : State} {i : Instr} (e : OutputEffect s i t) : t.slots = s.slots := by
  cases e <;> simp

/-- A register access changes no slot. -/
theorem AccessEffect.slots {s t : State} {i : Instr} (e : AccessEffect s i t) : t.slots = s.slots := by
  cases e <;> rfl

/-- An answer of the Port changes no slot. -/
theorem AnswerEffect.slots {s t : State} {id : Nat} {ans : PortAnswer} (e : AnswerEffect s id ans t) :
    t.slots = s.slots := by
  cases e <;> simp

/-- A host's write changes no slot's state. -/
theorem hostStore_slot_state (s : State) (a : Word) (width : Width) (v : Word) (c : Fin 8) :
    ((s.hostStore a width v).slot c).state = (s.slot c).state := by
  rw [hostStore_slot]
  split <;> rfl

theorem step_mayBecome {s t : State} {c : Fin 8} (e : step s = .next t)
    (hne : (t.slot c).state ≠ (s.slot c).state) :
    (∃ i, RunsControl s i ∧ MayBecome s c i (t.slot c).state) ∨ (Resets s ∧ (t.slot c).state = .free) := by
  have of_slots : t.slots ≠ s.slots := fun h => hne (by rw [State.slot_congr h])
  cases step_effect e with
  | control i a d _ hrun heff => exact .inl ⟨i, hrun, heff.mayBecome hne⟩
  | reset a hev => exact .inr ⟨hev, congrArg Slot.state (State.atReset_slot s.cfg c)⟩
  | stored a addr width v => exact absurd (hostStore_slot_state ..) hne
  | output i a d _ hrun heff => exact absurd heff.slots of_slots
  | access i a _ hrun heff => exact absurd heff.slots of_slots
  | answered a id ans _ hev heff => exact absurd heff.slots of_slots
  | waited | loaded | portRead => exact absurd rfl of_slots

/-- CH_STATE bits 1:0 are the state's number (R38, R39). -/
theorem stateWord_mod_four (sl : Slot) : sl.stateWord.toNat % 4 = stateNumber sl.state := by
  unfold Slot.stateWord
  cases sl.looping <;> cases sl.state <;> decide

end Sys2Proof.Machine

namespace Sys2Proof.Proofs

open Sys2Proof Sys2Proof.Machine Sys2Proof.Statements

/-- Settles O35: by the inversion of a step; only a control command and reset store another state in a slot, and
MIX does so by the induction over its frames in `cursorLoop_state_ne`. -/
theorem slotsChangeStateOnlyAsListed : Obligations.SlotsChangeStateOnlyAsListed := by
  refine ⟨fun _ _ _ e hne => step_mayBecome e hne, fun s c hidle => ?_⟩
  refine ⟨(s.slot c).stateWord, ?_, stateWord_mod_four _⟩
  simp [exec, execRdChState, State.bankRead, State.ctrlBusy, hidle, State.respond]

end Sys2Proof.Proofs
end

section
/-! SUPPORT. The family of 10_state.md: the invariant of the machine (R8, R27, R28, R40, R231), at reset and over every
step. -/

namespace Sys2Proof.Machine

/-! ### The invariant of a slot, one rule for each change of a slot -/

theorem Slot.freeSlot_inv : Slot.freeSlot.Inv := by decide

theorem fadeFull_stored_le : (BitVec.ofNat 32 fadeFull).toNat ≤ fadeFull := by decide

/-- A slot with no fade running: what is left to show of its step is nothing. -/
theorem Slot.inv_of_no_fade {sl : Slot} (hpos : sl.position.toNat ≤ sl.bufLen.toNat)
    (hlvl : sl.fadeLevel.toNat ≤ fadeFull) (hbase : sl.bufBase.getLsbD 0 = false) (hstep : sl.fadeStep = 0)
    (hfree : sl.state = .free → sl = Slot.freeSlot) : sl.Inv := by
  refine ⟨hpos, hlvl, hbase, ?_, ?_, fun _ => ?_, hfree⟩ <;> (rw [hstep]; decide)

theorem allocatedSlot_inv (s : State) : (allocatedSlot s).Inv := by
  obtain ⟨hpos, hlvl, hbase, -⟩ := Slot.freeSlot_inv
  exact Slot.inv_of_no_fade hpos hlvl hbase rfl nofun

theorem evenBase_bit0 (a : Word) : (evenBase a).getLsbD 0 = false := by
  simp [evenBase]

theorem submittedSlot_inv (a frames : Word) (sl : Slot) : (submittedSlot (evenBase a) frames sl).Inv :=
  Slot.inv_of_no_fade (Nat.zero_le _) fadeFull_stored_le (evenBase_bit0 a) rfl nofun

theorem volumeSlot_inv {sl : Slot} (l r : Word) (h : sl.Inv) (hused : sl.state ≠ .free) : (volumeSlot l r sl).Inv := by
  obtain ⟨hpos, hlvl, hbase, hlo, hhi, hplay, -⟩ := h
  exact ⟨hpos, hlvl, hbase, hlo, hhi, hplay, fun hf => absurd hf hused⟩

/-- Every fade step of R155 and R156 is stored exactly. -/
theorem toInt_ofInt_fade {x : Int} (hlo : -(fadeFull : Int) ≤ x) (hhi : x ≤ fadeFull) :
    (BitVec.ofInt 32 x).toInt = x := by
  unfold fadeFull at hlo hhi
  exact toInt_ofInt_word (by omega) (by omega)

theorem fadedOutSlot_inv {sl : Slot} (r : Rounding) (n : Nat) (h : sl.Inv) : (fadedOutSlot r n sl).Inv := by
  obtain ⟨hpos, hlvl, hbase, -⟩ := h
  unfold fadedOutSlot
  split
  · exact Slot.inv_of_no_fade hpos (Nat.zero_le _) hbase rfl nofun
  · next hn =>
    obtain ⟨⟨hlo, hhi⟩, -⟩ := quot_fadeFull_bounds r hn
    have hstep := toInt_ofInt_fade hlo hhi
    exact ⟨hpos, hlvl, hbase, hstep.symm ▸ hlo, hstep.symm ▸ hhi, nofun, nofun⟩

theorem fadedInSlot_inv {sl : Slot} (r : Rounding) (n : Nat) (h : sl.Inv) (hused : sl.state ≠ .free) :
    (fadedInSlot r n sl).Inv := by
  obtain ⟨hpos, -, hbase, -⟩ := h
  unfold fadedInSlot
  split
  · exact Slot.inv_of_no_fade hpos fadeFull_stored_le hbase rfl (fun hf => absurd hf hused)
  · next hn =>
    obtain ⟨-, hnonneg, hhi⟩ := quot_fadeFull_bounds r hn
    have hlo : -(fadeFull : Int) ≤ quot r fadeFull n := by omega
    have hstep := toInt_ofInt_fade hlo hhi
    exact ⟨hpos, Nat.zero_le _, hbase, hstep.symm ▸ hlo, hstep.symm ▸ hhi, fun _ => hstep.symm ▸ hnonneg,
      fun hf => absurd hf hused⟩

/-- The level after a pass is stored exactly, and so within its range (R188). -/
theorem nextLevel_stored_le (sl : Slot) : (BitVec.ofInt 32 (nextLevel sl)).toNat ≤ fadeFull := by
  obtain ⟨hlo, hhi⟩ := nextLevel_range sl
  have hstored := toNat_ofInt_word hlo (Int.lt_of_le_of_lt hhi (by decide))
  omega

/-- The turn of a slot in a pass (R181). -/
theorem mixedSlot_inv {sl : Slot} (gap : Bool) (n : Nat) (h : sl.Inv) : (mixedSlot gap n sl).Inv := by
  unfold mixedSlot
  split
  · exact h
  · next hact =>
    obtain ⟨hpos, hlvl, hbase, hlo, hhi, hplay, -⟩ := h
    have hused : sl.state ≠ .free := by
      rcases Slot.active_iff.mp (by simpa using hact) with hs | hs <;> simp [hs]
    split
    · exact ⟨hpos, hlvl, hbase, hlo, hhi, nofun, nofun⟩
    · next hlen =>
      obtain ⟨p, st, hcur, hst, hp⟩ := cursorLoop_cases gap sl n hlen
      obtain ⟨st', step, hupd, hst', hstep⟩ := fadeUpdate_cases (cursorLoop gap sl n)
      have hkept : st' = .idle ∨ st' = sl.state := by
        rw [hcur] at hst'
        rcases hst' with ⟨hidle, -⟩ | hsame
        · exact .inl hidle
        · exact hsame ▸ hst.symm
      rw [hupd]
      have hlvl' := nextLevel_stored_le (cursorLoop gap sl n)
      rw [hcur] at hlvl' hstep ⊢
      have hfree : st' ≠ .free := by rcases hkept with rfl | rfl <;> [nofun; exact hused]
      have hplaying : st' = .playing → sl.state = .playing := by rcases hkept with rfl | rfl <;> [nofun; exact id]
      rcases hstep with rfl | ⟨rfl, -⟩
      · exact ⟨hp hpos, hlvl', hbase, hlo, hhi, fun hs => hplay (hplaying hs), fun hs => absurd hs hfree⟩
      · exact Slot.inv_of_no_fade (hp hpos) hlvl' hbase rfl (fun hs => absurd hs hfree)

theorem Slot.noteHostWrite_inv {sl : Slot} (r : Region) (h : sl.Inv) : (sl.noteHostWrite r).Inv := by
  unfold Slot.noteHostWrite
  split
  · next hnote =>
    obtain ⟨hpos, hlvl, hbase, hlo, hhi, hplay, -⟩ := h
    have hused : sl.state ≠ .free := by
      simp only [Bool.and_eq_true, bne_iff_ne] at hnote
      exact hnote.1
    exact ⟨hpos, hlvl, hbase, hlo, hhi, hplay, fun hf => absurd hf hused⟩
  · exact h

/-! ### The invariant of the machine, one rule for each operation on the state -/

/-- The reset state (R261) has the invariant. -/
theorem State.atReset_inv {cfg : Config} (h : cfg.wf = true) : (State.atReset cfg).Inv := by
  have hctrl : ResultCode.ok ∈ ctrlResults := by decide
  have hout : ResultCode.ok ∈ outResults := by decide
  exact ⟨h, Nat.le_refl unity, sampleCountFor_dvd _ h, sampleCountFor_le .., hctrl, hout, rfl,
    fun c => State.atReset_slot cfg c ▸ Slot.freeSlot_inv, rfl⟩

theorem State.Inv.completeCtrl {s : State} (h : s.Inv) {code : ResultCode} (hcode : code ∈ ctrlResults) :
    (s.completeCtrl code).Inv := by
  obtain ⟨hcfg, hvol, hdvd, hmax, -, hout, hwait, hslots, hmem⟩ := h
  exact ⟨hcfg, hvol, hdvd, hmax, hcode, hout, hwait, hslots, hmem⟩

theorem State.Inv.completeOut {s : State} (h : s.Inv) {code : ResultCode} (hcode : code ∈ outResults) :
    (s.completeOut code).Inv := by
  obtain ⟨hcfg, hvol, hdvd, hmax, hctrl, -, -, hslots, hmem⟩ := h
  exact ⟨hcfg, hvol, hdvd, hmax, hctrl, hcode, rfl, hslots, hmem⟩

theorem State.Inv.setSlot {s : State} (h : s.Inv) (c : Fin 8) {sl : Slot} (hsl : sl.Inv) : (s.setSlot c sl).Inv := by
  obtain ⟨hcfg, hvol, hdvd, hmax, hctrl, hout, hwait, hslots, hmem⟩ := h
  refine ⟨hcfg, hvol, hdvd, hmax, hctrl, hout, hwait, fun d => ?_, hmem⟩
  rw [State.slot_setSlot]
  split
  · exact hsl
  · exact hslots d

theorem State.Inv.portCall {s : State} (h : s.Inv) (req : PortReq) : (s.portCall req).Inv := by
  obtain ⟨hcfg, hvol, hdvd, hmax, hctrl, hout, -, hslots, hmem⟩ := h
  exact ⟨hcfg, hvol, hdvd, hmax, hctrl, hout, by simp [State.awaitedWasSent], hslots, hmem⟩

theorem State.Inv.releaseOld {s : State} (h : s.Inv) (old : Option Reservation) : (s.releaseOld old).Inv := by
  cases old <;> exact h

theorem State.Inv.noteOutputWrite {s : State} (h : s.Inv) (r : Region) : (s.noteOutputWrite r).Inv := by
  unfold State.noteOutputWrite
  split <;> exact h

/-- Slots, memory and the draw counter replaced at once, as MIX and a host's write do. -/
theorem State.Inv.withSlotsMem {s : State} (h : s.Inv) {v : Vector Slot 8} {m : Memory} (d : Nat)
    (hv : ∀ c : Fin 8, v[c].Inv) (hm : Memory.wf m = true) : ({ s with slots := v, mem := m, draws := d }).Inv := by
  obtain ⟨hcfg, hvol, hdvd, hmax, hctrl, hout, hwait, -, -⟩ := h
  exact ⟨hcfg, hvol, hdvd, hmax, hctrl, hout, hwait, hv, hm⟩

theorem State.Inv.hostStore {s : State} (h : s.Inv) (a : Word) (width : Width) (v : Word) :
    (s.hostStore a width v).Inv := by
  obtain ⟨-, -, -, -, -, -, -, hslots, hmem⟩ := id h
  refine (h.withSlotsMem s.draws (fun c => ?_) (Memory.wf_memWrite _ _ _ _ hmem)).noteOutputWrite _
  rw [Fin.getElem_fin, Vector.getElem_map]
  exact Slot.noteHostWrite_inv _ (hslots c)

/-! ### The invariant over the step of each agent -/

theorem ControlEffect.inv {s t : State} {i : Instr} (e : ControlEffect s i t) (h : s.Inv) : t.Inv := by
  obtain ⟨hcfg, hvol, -, -, hctrl, hout, hwait, hslots, hmem⟩ := id h
  have hok : ResultCode.ok ∈ ctrlResults := by decide
  cases e with
  | ended _ code hcode => exact h.completeCtrl hcode
  | allocated ch c hfirst => exact State.Inv.completeCtrl (h.setSlot c (allocatedSlot_inv s)) hok
  | freed _ c => exact (h.setSlot c Slot.freeSlot_inv).completeCtrl hok
  | submitted _ c => exact (h.setSlot c (submittedSlot_inv ..)).completeCtrl hok
  | volumeSet _ c l r _ hused => exact (h.setSlot c (volumeSlot_inv l r (hslots c) hused)).completeCtrl hok
  | fadedOut _ c => exact (h.setSlot c (fadedOutSlot_inv _ _ (hslots c))).completeCtrl hok
  | fadedIn _ c _ hused => exact (h.setSlot c (fadedInSlot_inv _ _ (hslots c) hused)).completeCtrl hok
  | counted ch =>
    exact State.Inv.completeCtrl (s := { s with sampleCount := sampleCountFor s.cfg s.argCount })
      ⟨hcfg, hvol, sampleCountFor_dvd _ hcfg, sampleCountFor_le .., hctrl, hout, hwait, hslots, hmem⟩ hok
  | mixed ch v d fs hv =>
    exact ((h.withSlotsMem d (fun c => hv c ▸ mixedSlot_inv _ _ (hslots c))
      (wf_writeFrames _ _ fs hmem)).noteOutputWrite _).completeCtrl hok

theorem OutputEffect.inv {s t : State} {i : Instr} (e : OutputEffect s i t) (h : s.Inv) : t.Inv := by
  cases e with
  | ended _ code hcode => exact h.completeOut hcode
  | requested _ req => exact h.portCall req
  | released => exact (State.Inv.releaseOld (s := { s with hw := none }) h _).completeOut (by decide)

theorem AccessEffect.inv {s t : State} {i : Instr} (e : AccessEffect s i t) (h : s.Inv) : t.Inv := by
  obtain ⟨hcfg, -, hdvd, hmax, hctrl, hout, -, hslots, hmem⟩ := id h
  cases e with
  | masterVol w =>
    obtain ⟨-, -, -, -, -, -, hwait, -, -⟩ := h
    exact ⟨hcfg, masterVolIn_le w, hdvd, hmax, hctrl, hout, hwait, hslots, hmem⟩
  | outAccepted w hidle =>
    obtain ⟨-, hvol, -⟩ := h
    exact ⟨hcfg, hvol, hdvd, hmax, hctrl, hout, rfl, hslots, hmem⟩
  | answered | ctrlDropped | ctrlAccepted | ctrlArg0 | ctrlArg1 | ctrlArg2 | ctrlStatus | lockWritten | lockTaken
  | outDropped | outArg0 | outArg1 | outStatus => exact h

theorem AnswerEffect.inv {s t : State} {id : Nat} {ans : PortAnswer} (e : AnswerEffect s id ans t) (h : s.Inv) :
    t.Inv := by
  cases e with
  | ignored => exact h
  | failed req code => exact State.Inv.completeOut (s := { s with outErrcode := code }) h (by decide)
  | reserved frames format k =>
    exact (State.Inv.releaseOld (s := { s with hw := some ⟨k, frames⟩ }) h _).completeOut (by decide)
  | played => exact h.completeOut (by decide)

theorem State.Inv.applyReset {s : State} (h : s.Inv) : s.applyReset.Inv := by
  obtain ⟨hcfg, -, -, -, -, -, -, -, hmem⟩ := h
  obtain ⟨-, hvol, hdvd, hmax, hctrl, hout, hwait, hslots, -⟩ := State.atReset_inv hcfg
  exact ⟨hcfg, hvol, hdvd, hmax, hctrl, hout, hwait, hslots, by simpa [State.applyReset] using hmem⟩

theorem step_inv {s t : State} (h : s.Inv) (e : step s = .next t) : t.Inv := by
  cases step_effect e with
  | control i a d _ hrun heff => exact heff.inv h
  | output i a d _ hrun heff => exact heff.inv h
  | access i a _ hrun heff => exact heff.inv h
  | answered a id ans _ hev heff => exact heff.inv h
  | stored a addr width v => exact State.Inv.hostStore (s := { s with agenda := a }) h addr width v
  | reset a => exact State.Inv.applyReset (s := { s with agenda := a }) h
  | waited | loaded | portRead => exact h

end Sys2Proof.Machine

namespace Sys2Proof.Proofs

open Sys2Proof Sys2Proof.Machine Sys2Proof.Statements

/-- Settles O1: the values of R261 one by one, with the bounds of `sampleCountFor` for SAMPLE_COUNT. -/
theorem resetStateMeetsTheInvariant : Obligations.ResetStateMeetsTheInvariant :=
  ⟨State.atReset_inv (by decide), fun _ h => State.atReset_inv h⟩

/-- Settles O55: by the inversion of a step, with one rule for each operation on the state; MIX rests on
`mixedSlot_inv`. -/
theorem stepKeepsTheInvariant : Obligations.StepKeepsTheInvariant := fun _ _ h e => step_inv h e

end Sys2Proof.Proofs
end

section
/-! SUPPORT. The family of 10_state.md: the writers of each register (R22 to R42), and the reserved offsets (R43). -/

namespace Sys2Proof.Machine

open Sys2Proof.Statements

/-! ### Writers -/

/-- What `Obligations.RegistersHaveTheirOwnWriters` says of one step from `s` to `t`, clause by clause. A clause whose
register the step does not write has its default proof. -/
structure OwnWriters (s t : State) : Prop where
  cfg : t.cfg = s.cfg := by simp
  ctrlArg0 : t.ctrlArg0 ≠ s.ctrlArg0 → Resets s ∨ AccessesRegister s (.wrCtrlArg0 t.ctrlArg0) 
    := by exact absurd (by simp)
  ctrlArg1 : t.ctrlArg1 ≠ s.ctrlArg1 → Resets s ∨ AccessesRegister s (.wrCtrlArg1 t.ctrlArg1) 
    := by exact absurd (by simp)
  ctrlArg2 : t.ctrlArg2 ≠ s.ctrlArg2 → Resets s ∨ AccessesRegister s (.wrCtrlArg2 t.ctrlArg2) 
    := by exact absurd (by simp)
  outArg0 : t.outArg0 ≠ s.outArg0 → Resets s ∨ AccessesRegister s (.wrOutArg0 t.outArg0) 
    := by exact absurd (by simp)
  outArg1 : t.outArg1 ≠ s.outArg1 → Resets s ∨ AccessesRegister s (.wrOutArg1 t.outArg1) 
    := by exact absurd (by simp)
  ctrlResult : t.ctrlResult ≠ s.ctrlResult → Resets s ∨ (t.ctrlCode = .ok ∧ ∃ ch, RunsControl s (.alloc ch)) 
    := by exact absurd (by simp)
  masterVol : t.masterVol ≠ s.masterVol → Resets s ∨ ∃ w, AccessesRegister s (.wrMasterVol w) 
    := by exact absurd (by simp)
  sampleCount : t.sampleCount ≠ s.sampleCount → Resets s ∨ ∃ ch, RunsControl s (.setSampleCount ch) 
    := by exact absurd (by simp)
  lockHeld : t.lockHeld ≠ s.lockHeld →
      Resets s ∨ AccessesRegister s .rdCtrlLock ∨ ∃ w, AccessesRegister s (.wrCtrlLock w) 
    := by exact absurd (by simp)
  outErrcode : t.outErrcode ≠ s.outErrcode →
      Resets s ∨ (t.outCode = .audioError ∧ ∃ id, s.agenda.head? = some (.portAnswer id (.err t.outErrcode))) 
    := by exact absurd (by simp)
  hw : t.hw ≠ s.hw →
      Resets s ∨ RunsOutput s .release ∨ ∃ id h, s.agenda.head? = some (.portAnswer id (.ok h)) 
    := by exact absurd (by simp)
  ctrlLatch : t.ctrlLatch ≠ s.ctrlLatch →
      Resets s ∨ (s.ctrlLatch = none ∧ ∃ w, t.ctrlLatch = some w ∧ AccessesRegister s (.wrCtrlCmd w)) ∨
        (t.ctrlLatch = none ∧ ∃ i, RunsControl s i) 
    := by exact absurd (by simp)
  ctrlCode : t.ctrlCode ≠ s.ctrlCode → Resets s ∨ (t.ctrlLatch = none ∧ ∃ i, RunsControl s i) 
    := by exact absurd (by simp)
  ctrlOvr : t.ctrlOvr ≠ s.ctrlOvr →
      Resets s ∨ (t.ctrlOvr = true ∧ s.ctrlLatch ≠ none ∧ WritesCtrlPort s) ∨
        (t.ctrlOvr = false ∧ ∃ w : Word, w.toNat / 512 % 2 = 1 ∧ AccessesRegister s (.wrCtrlStatus w)) 
    := by exact absurd (by simp)
  outPhase : t.outPhase ≠ s.outPhase →
      Resets s ∨ (s.outPhase = .idle ∧ ∃ w, t.outPhase = .pending w ∧ AccessesRegister s (.wrOutCmd w)) ∨
        (∃ i, RunsOutput s i) ∨
        (t.outPhase = .idle ∧ ∃ id req ans, s.outPhase = .awaitPort id req ∧
          s.agenda.head? = some (.portAnswer id ans)) 
    := by exact absurd (by simp)
  outCode : t.outCode ≠ s.outCode →
      Resets s ∨ (t.outPhase = .idle ∧ ((∃ i, RunsOutput s i) ∨
        ∃ id req ans, s.outPhase = .awaitPort id req ∧ s.agenda.head? = some (.portAnswer id ans))) 
    := by exact absurd (by simp)
  outOvr : t.outOvr ≠ s.outOvr →
      Resets s ∨ (t.outOvr = true ∧ s.outPhase ≠ .idle ∧ WritesOutPort s) ∨
        (t.outOvr = false ∧ ∃ w : Word, w.toNat / 512 % 2 = 1 ∧ AccessesRegister s (.wrOutStatus w)) 
    := by exact absurd (by simp)

/-- Every register may change at reset. -/
theorem OwnWriters.of_reset {s t : State} (hcfg : t.cfg = s.cfg) (h : Resets s) : OwnWriters s t where
  cfg := hcfg
  ctrlArg0 _ := .inl h
  ctrlArg1 _ := .inl h
  ctrlArg2 _ := .inl h
  outArg0 _ := .inl h
  outArg1 _ := .inl h
  ctrlResult _ := .inl h
  masterVol _ := .inl h
  sampleCount _ := .inl h
  lockHeld _ := .inl h
  outErrcode _ := .inl h
  hw _ := .inl h
  ctrlLatch _ := .inl h
  ctrlCode _ := .inl h
  ctrlOvr _ := .inl h
  outPhase _ := .inl h
  outCode _ := .inl h
  outOvr _ := .inl h

/-- OVR changes at a write to its status register only if bit 9 of the word clears it (R130). -/
theorem ovrAfterWrite_ne {ovr : Bool} {w : Word} (h : ovrAfterWrite ovr w ≠ ovr) :
    ovrAfterWrite ovr w = false ∧ w.toNat / 512 % 2 = 1 := by
  have hbit : w.getLsbD 9 = decide (w.toNat / 512 % 2 = 1) := Nat.testBit_eq_decide_div_mod_eq
  unfold ovrAfterWrite at h ⊢
  rw [hbit] at h ⊢
  by_cases hw : w.toNat / 512 % 2 = 1
  · exact ⟨by simp [hw], hw⟩
  · exact absurd (by simp [hw]) h

theorem ControlEffect.ownWriters {s t : State} {i : Instr} {a : List Event} {d : Nat}
    (e : ControlEffect { s with agenda := a, draws := d } i t) (hrun : RunsControl s i) : OwnWriters s t := by
  have hruns : ∃ i, RunsControl s i := ⟨i, hrun⟩
  cases e with
  | allocated ch c =>
    exact {
      ctrlResult := fun _ => .inr ⟨rfl, ch, hrun⟩
      ctrlLatch := fun _ => .inr (.inr ⟨rfl, hruns⟩)
      ctrlCode := fun _ => .inr ⟨rfl, hruns⟩ }
  | counted ch =>
    exact {
      sampleCount := fun _ => .inr ⟨ch, hrun⟩
      ctrlLatch := fun _ => .inr (.inr ⟨rfl, hruns⟩)
      ctrlCode := fun _ => .inr ⟨rfl, hruns⟩ }
  | ended | freed | submitted | volumeSet | fadedOut | fadedIn | mixed =>
    exact { ctrlLatch := fun _ => .inr (.inr ⟨rfl, hruns⟩), ctrlCode := fun _ => .inr ⟨rfl, hruns⟩ }

theorem OutputEffect.ownWriters {s t : State} {i : Instr} {a : List Event} {d : Nat}
    (e : OutputEffect { s with agenda := a, draws := d } i t) (hrun : RunsOutput s i) : OwnWriters s t := by
  have hruns : ∃ i, RunsOutput s i := ⟨i, hrun⟩
  cases e with
  | ended =>
    exact { outPhase := fun _ => .inr (.inr (.inl hruns)), outCode := fun _ => .inr ⟨rfl, .inl hruns⟩ }
  | requested => exact { outPhase := fun _ => .inr (.inr (.inl hruns)) }
  | released =>
    exact {
      hw := fun _ => .inr (.inl hrun)
      outPhase := fun _ => .inr (.inr (.inl hruns))
      outCode := fun _ => .inr ⟨rfl, .inl hruns⟩ }

theorem AccessEffect.ownWriters {s t : State} {i : Instr} {a : List Event}
    (e : AccessEffect { s with agenda := a } i t) (hrun : AccessesRegister s i) : OwnWriters s t := by
  cases e with
  | answered => exact {}
  | ctrlDropped _ hbusy hi =>
    obtain ⟨w, hi⟩ := hi
    have hwrites : WritesCtrlPort s := ⟨w, by rcases hi with rfl | rfl | rfl | rfl <;> simp [hrun]⟩
    exact { ctrlOvr := fun _ => .inr (.inl ⟨rfl, hbusy, hwrites⟩) }
  | ctrlAccepted w hidle => exact { ctrlLatch := fun _ => .inr (.inl ⟨hidle, w, rfl, hrun⟩) }
  | ctrlArg0 w => exact { ctrlArg0 := fun _ => .inr hrun }
  | ctrlArg1 w => exact { ctrlArg1 := fun _ => .inr hrun }
  | ctrlArg2 w => exact { ctrlArg2 := fun _ => .inr hrun }
  | ctrlStatus w =>
    refine { ctrlOvr := fun hne => ?_ }
    obtain ⟨hclear, hbit⟩ := ovrAfterWrite_ne hne
    exact .inr (.inr ⟨hclear, w, hbit, hrun⟩)
  | masterVol w => exact { masterVol := fun _ => .inr ⟨w, hrun⟩ }
  | lockWritten w => exact { lockHeld := fun _ => .inr (.inr ⟨w, hrun⟩) }
  | lockTaken v => exact { lockHeld := fun _ => .inr (.inl hrun) }
  | outDropped _ hbusy hi =>
    obtain ⟨w, hi⟩ := hi
    have hwrites : WritesOutPort s := ⟨w, by rcases hi with rfl | rfl | rfl <;> simp [hrun]⟩
    exact { outOvr := fun _ => .inr (.inl ⟨rfl, hbusy, hwrites⟩) }
  | outAccepted w hidle => exact { outPhase := fun _ => .inr (.inl ⟨hidle, w, rfl, hrun⟩) }
  | outArg0 w => exact { outArg0 := fun _ => .inr hrun }
  | outArg1 w => exact { outArg1 := fun _ => .inr hrun }
  | outStatus w =>
    refine { outOvr := fun hne => ?_ }
    obtain ⟨hclear, hbit⟩ := ovrAfterWrite_ne hne
    exact .inr (.inr ⟨hclear, w, hbit, hrun⟩)

theorem AnswerEffect.ownWriters {s t : State} {id : Nat} {ans : PortAnswer} {a : List Event}
    (e : AnswerEffect { s with agenda := a } id ans t) (hev : s.agenda.head? = some (.portAnswer id ans)) :
    OwnWriters s t := by
  cases e with
  | ignored => exact {}
  | failed req code hwait =>
    exact {
      outErrcode := fun _ => .inr ⟨rfl, id, hev⟩
      outPhase := fun _ => .inr (.inr (.inr ⟨rfl, id, req, _, hwait, hev⟩))
      outCode := fun _ => .inr ⟨rfl, .inr ⟨id, req, _, hwait, hev⟩⟩ }
  | reserved frames format h hwait =>
    exact {
      hw := fun _ => .inr (.inr ⟨id, h, hev⟩)
      outPhase := fun _ => .inr (.inr (.inr ⟨rfl, id, _, _, hwait, hev⟩))
      outCode := fun _ => .inr ⟨rfl, .inr ⟨id, _, _, hwait, hev⟩⟩ }
  | played req h hwait =>
    exact {
      outPhase := fun _ => .inr (.inr (.inr ⟨rfl, id, req, _, hwait, hev⟩))
      outCode := fun _ => .inr ⟨rfl, .inr ⟨id, req, _, hwait, hev⟩⟩ }

/-- A host's access to bus memory, a Port read and a step of an engine with nothing to do write no register. -/
theorem OwnWriters.of_data (s : State) (v : Vector Slot 8) (m : Memory) (a : List Event) (r : Word) (p : Byte)
    (d : Nat) :
    OwnWriters s { s with slots := v, mem := m, agenda := a, readData := r, portData := p, draws := d } := {}

theorem step_ownWriters {s t : State} (e : step s = .next t) : OwnWriters s t := by
  cases step_effect e with
  | control i a d _ hrun heff => exact heff.ownWriters hrun
  | output i a d _ hrun heff => exact heff.ownWriters hrun
  | access i a _ hrun heff => exact heff.ownWriters hrun
  | answered a id ans _ hev heff => exact heff.ownWriters hev
  | stored =>
    unfold State.hostStore
    exact {}
  | reset a hev => exact .of_reset rfl hev
  | waited | loaded | portRead => exact .of_data ..

/-! ### The reserved offsets -/

/-- The offsets are taken one by one, as in `decodeRegister_format`. -/
theorem decodeRegister_unnamed {off : BitVec 9} (a : Access) (hal : off.toNat % 4 = 0) (hlt : off.toNat < 0x100)
    (hnamed : off.toNat ∉ namedOffsets) : decodeRegister off a = .reserved off a := by
  obtain ⟨k, hk64, hk⟩ := exists_register_number hal hlt
  unfold decodeRegister
  rw [hk] at hnamed ⊢
  interval_cases k
  any_goals rfl
  all_goals exact absurd (by decide) hnamed

/-- An aligned 32-bit access below the bank is one to a register of R23, or to a reserved offset. -/
theorem decode_register {off : BitVec 9} (a : Access) (hal : off.toNat % 4 = 0) (hlt : off.toNat < 0x100) :
    decode (.mmio off .word a) = .ok (decodeRegister off a) := by
  simp [decode, decodeMmio, hal, hlt]

end Sys2Proof.Machine

namespace Sys2Proof.Proofs

open Sys2Proof Sys2Proof.Machine Sys2Proof.Statements

/-- Settles O22: an aligned offset below 0x100 that no rule names decodes to RESERVED (`decodeRegister_unnamed`),
whose read answers 0 and whose write is ignored. -/
theorem reservedOffsets : Obligations.ReservedOffsets := by
  intro off a hal hlt hnamed
  refine ⟨?_, fun s w => ⟨rfl, rfl⟩⟩
  rw [decode_register a hal hlt, decodeRegister_unnamed a hal hlt hnamed]

/-- Settles O56: by the inversion of a step, agent by agent; a default proof stands for each register that the
agent's step leaves. -/
theorem registersHaveTheirOwnWriters : Obligations.RegistersHaveTheirOwnWriters := by
  intro s t e
  have h := step_ownWriters e
  exact ⟨h.cfg, h.ctrlArg0, h.ctrlArg1, h.ctrlArg2, h.outArg0, h.outArg1, h.ctrlResult, h.masterVol, h.sampleCount,
    h.lockHeld, h.outErrcode, h.hw, h.ctrlLatch, h.ctrlCode, h.ctrlOvr, h.outPhase, h.outCode, h.outOvr⟩

end Sys2Proof.Proofs
end

section
/-! SUPPORT. The family of 20_memory.md: which accesses touch the register window, and which of them are served
(R23, R66). -/

namespace Sys2Proof.Machine

open Sys2Proof.Statements

/-! ### Accesses that touch the window -/

/-- An access with a byte in the window overlaps it, wherever the window lies. -/
theorem overlaps_of_touchesWindow {cfg : Config} {a : BusAccess} (h : TouchesWindow cfg a) :
    (windowOf cfg).overlaps ⟨a.addr, a.width.bytes⟩ = true := by
  obtain ⟨k, hk, hlo, hhi⟩ := h
  have ha := a.addr.isLt
  have hb := cfg.mixerBase.isLt
  rw [Region.overlaps_iff]
  refine ⟨BitVec.ofNat 32 (a.addr.toNat + k), ?_⟩
  simp only [Region.contains_iff, windowOf, windowSize, BitVec.toNat_ofNat]
  omega

/-- The domain of `MIXER_BASE` (R8). -/
theorem mixerBase_mod_of_wf {cfg : Config} (h : cfg.wf = true) : cfg.mixerBase.toNat % 0x200 = 0 := by
  simp only [Config.wf, Bool.and_eq_true, beq_iff_eq] at h
  exact h.1

/-- The window of a base in its domain does not wrap, so that whatever overlaps it has a byte in it. -/
theorem touchesWindow_iff {cfg : Config} (hcfg : cfg.wf = true) (a : BusAccess) :
    TouchesWindow cfg a ↔ (windowOf cfg).overlaps ⟨a.addr, a.width.bytes⟩ = true := by
  refine ⟨overlaps_of_touchesWindow, fun h => ?_⟩
  have hbase := mixerBase_mod_of_wf hcfg
  obtain ⟨x, hwin, hacc⟩ := (Region.overlaps_iff _ _).mp h
  simp only [Region.contains_iff, windowOf, windowSize] at hwin hacc
  have ha := a.addr.isLt
  have hb := cfg.mixerBase.isLt
  have hx := x.isLt
  refine ⟨(x.toNat + (2 ^ 32 - a.addr.toNat)) % 2 ^ 32, hacc, ?_⟩
  omega

theorem hostAccess_of_touchesWindow {s : State} {a : BusAccess} (h : TouchesWindow s.cfg a) :
    hostAccess a s = execRaw (.mmio ((a.addr - s.cfg.mixerBase).setWidth 9) a.width a.access) s := by
  rw [hostAccess, if_pos (overlaps_of_touchesWindow h)]

/-- The offset of an access is aligned exactly if its address is (R23: the base is a multiple of the window's size). -/
theorem window_offset_mod_four {cfg : Config} (hcfg : cfg.wf = true) (addr : Word) :
    ((addr - cfg.mixerBase).setWidth 9 : BitVec 9).toNat % 4 = addr.toNat % 4 := by
  have hbase := mixerBase_mod_of_wf hcfg
  have hb := cfg.mixerBase.isLt
  simp only [BitVec.toNat_setWidth, BitVec.toNat_sub]
  omega

/-! ### Which register accesses are served -/

theorem decode_wrongWidth (off : BitVec 9) {width : Width} (a : Access) (h : width ≠ .word) :
    decode (.mmio off width a) = .error .wrongWidth := by
  simp [decode, decodeMmio, h]

theorem decode_misaligned {off : BitVec 9} (a : Access) (h : off.toNat % 4 ≠ 0) :
    decode (.mmio off .word a) = .error .misaligned := by
  simp [decode, decodeMmio, h]

/-- An aligned 32-bit access from 0x100 on is one to the channel bank (R39). -/
theorem decode_bank {off : BitVec 9} (a : Access) (hal : off.toNat % 4 = 0) (hge : 0x100 ≤ off.toNat) :
    decode (.mmio off .word a) = .ok (decodeBank off a) := by
  simp [decode, decodeMmio, hal, hge]

theorem decode_aligned {off : BitVec 9} (a : Access) (h : off.toNat % 4 = 0) :
    ∃ i, decode (.mmio off .word a) = .ok i :=
  (Nat.lt_or_ge off.toNat 0x100).elim (fun hlt => ⟨_, decode_register a h hlt⟩) (fun hge => ⟨_, decode_bank a h hge⟩)

theorem channelCommand_next (rejectFree : Bool) (h : BitVec 8) (s : State) (f : Slot → Slot) :
    ∃ t, channelCommand rejectFree h s f = .next t := by
  rcases channelCommand_cases rejectFree h s f with ⟨_, _, e⟩ | ⟨_, e⟩ <;> exact ⟨_, e⟩

/-- Every instruction answers a next state, in every state (R230). -/
theorem exec_next (i : Instr) (s : State) : ∃ t, exec i s = .next t := by
  cases i
  case alloc ch =>
    simp only [exec, execAlloc]
    split <;> exact ⟨_, rfl⟩
  case free | submit | setVolume | fadeOut | fadeIn =>
    simp only [exec, execFree, execSubmit, execSetVolume, execFadeOut, execFadeIn]
    exact channelCommand_next ..
  case output =>
    simp only [exec, execOutput]
    split
    · exact ⟨_, rfl⟩
    · split <;> exact ⟨_, rfl⟩
  case reserved off a => cases a <;> exact ⟨_, rfl⟩
  all_goals exact ⟨_, rfl⟩

end Sys2Proof.Machine

namespace Sys2Proof.Proofs

open Sys2Proof Sys2Proof.Machine Sys2Proof.Statements

/-- Settles O13: an access that touches the window is decoded at its offset, which is as aligned as its address
(`window_offset_mod_four`); one that decodes answers a next state, as every instruction does (`exec_next`). -/
theorem onlyAlignedWordAccessesAreDefined : Obligations.OnlyAlignedWordAccessesAreDefined := by
  intro s a rest hcfg hag htouch
  have hstep : step s =
      execRaw (.mmio ((a.addr - s.cfg.mixerBase).setWidth 9) a.width a.access) { s with agenda := rest } :=
    (step_event hag).trans (hostAccess_of_touchesWindow (s := { s with agenda := rest }) htouch)
  have hoff := window_offset_mod_four hcfg a.addr
  refine ⟨fun hwidth => ?_, fun hwidth hmis => ?_, fun hwidth hal => ?_⟩
  · rw [hstep, execRaw_error (decode_wrongWidth _ a.access hwidth)]
    rfl
  · rw [hstep, hwidth, execRaw_error (decode_misaligned a.access (by rwa [hoff]))]
    rfl
  · obtain ⟨i, hi⟩ := decode_aligned a.access (hoff.trans hal)
    rw [hstep, hwidth, execRaw_ok hi]
    exact exec_next i _

end Sys2Proof.Proofs
end

section
/-! SUPPORT. The family of 20_memory.md: the writers of memory (R60, R61). -/

namespace Sys2Proof.Machine

open Sys2Proof.Statements

/-- Of the control commands only MIX writes memory. -/
theorem ControlEffect.mem_ne {s t : State} {i : Instr} (e : ControlEffect s i t) (hne : t.mem ≠ s.mem) :
    ∃ ch, i = .mix ch := by
  cases e with
  | mixed ch => exact ⟨ch, rfl⟩
  | ended | allocated | freed | submitted | volumeSet | fadedOut | fadedIn | counted => exact absurd rfl hne

theorem OutputEffect.mem {s t : State} {i : Instr} (e : OutputEffect s i t) : t.mem = s.mem := by
  cases e <;> simp

theorem AccessEffect.mem {s t : State} {i : Instr} (e : AccessEffect s i t) : t.mem = s.mem := by
  cases e <;> rfl

theorem AnswerEffect.mem {s t : State} {id : Nat} {ans : PortAnswer} (e : AnswerEffect s id ans t) :
    t.mem = s.mem := by
  cases e <;> simp

/-- Reset keeps memory (log 21). -/
theorem State.applyReset_mem (s : State) : s.applyReset.mem = s.mem := by
  simp [State.applyReset]

end Sys2Proof.Machine

namespace Sys2Proof.Proofs

open Sys2Proof Sys2Proof.Machine Sys2Proof.Statements

/-- Settles O57: by the inversion of a step; only MIX and a host's store change memory. -/
theorem onlyMixAndHostsWriteMemory : Obligations.OnlyMixAndHostsWriteMemory := by
  intro s t e hne
  cases step_effect e with
  | control i a d _ hrun heff =>
    obtain ⟨ch, rfl⟩ := heff.mem_ne hne
    exact .inl ⟨ch, hrun⟩
  | stored a addr width v hev hout =>
    refine .inr ⟨addr, width, v, hev, fun htouch => ?_⟩
    exact absurd (overlaps_of_touchesWindow htouch) (by simp [hout])
  | output i a d _ hrun heff => exact absurd heff.mem hne
  | access i a _ hrun heff => exact absurd heff.mem hne
  | answered a id ans _ hev heff => exact absurd heff.mem hne
  | reset a hev => exact absurd (State.applyReset_mem { s with agenda := a }) hne
  | waited | loaded | portRead => exact absurd rfl hne

end Sys2Proof.Proofs
end

section
/-! SUPPORT. The family of 20_memory.md: a host's accesses to bus memory (R62, R68, R77, R101). -/

namespace Sys2Proof.Machine

open Sys2Proof.Statements

/-! ### Samples and regions in the words of the statements -/

/-- A sample is its two bytes in `SAMPLE_ENDIAN` order, as a signed number (R62). -/
theorem sampleOf_eq (e : Endian) (b0 b1 : Byte) : sampleOf e b0 b1 = (BitVec.ofNat 16 (assemble e [b0, b1])).toInt := by
  have h0 := b0.isLt
  have h1 := b1.isLt
  rw [BitVec.toInt_eq_toNat_cond]
  cases e <;> simp [sampleOf, assemble, littleValue] <;> omega

theorem sampleAt_eq (cfg : Config) (m : Memory) (a : Nat) :
    sampleAt cfg m a = (BitVec.ofNat 16 (memRead cfg.sampleEndian m a 2)).toInt := sampleOf_eq ..

/-- A 16-bit store is read back as the sample of its low half. -/
theorem sampleAt_memWrite (cfg : Config) {m : Memory} (a : Nat) (v : Word) (hm : m.wf = true) :
    sampleAt cfg (memWrite cfg.sampleEndian m a 2 v.toNat) a = (v.setWidth 16).toInt := by
  rw [sampleAt_eq, memRead_memWrite_two _ _ _ hm]
  congr 1
  apply BitVec.eq_of_toNat_eq
  simp

theorem contains_iff_not_outside (r : Region) (x : Word) : r.contains x.toNat = true ↔ ¬ OutsideRegion r x := by
  rw [Region.contains_iff, OutsideRegion, Nat.not_le]

theorem meets_iff_overlaps (r q : Region) : Meets r q ↔ r.overlaps q = true := by
  simp only [Meets, Region.overlaps_iff, contains_iff_not_outside]

/-- Bit 0 taken as 0 (R65), as arithmetic: the mask keeps the upper half of the word and clears the rest. -/
theorem evenBase_toNat (a : Word) : (evenBase a).toNat = a.toNat / 2 * 2 := by
  have ha := a.isLt
  have hupper : (evenBase a).toNat / 2 = a.toNat / 2 % 2 ^ 31 := by
    simp only [evenBase, BitVec.toNat_and, Nat.and_div_two]
    exact Nat.and_two_pow_sub_one_eq_mod (a.toNat / 2) 31
  have hlow : (evenBase a).toNat % 2 = 0 := by
    simpa [BitVec.getLsbD, Nat.testBit_zero] using evenBase_bit0 a
  omega

/-- The open bytes are those of a pending MIX's output region (R68). -/
theorem mixPendingAt_iff_inPendingMix (s : State) (a : Nat) : s.mixPendingAt a = true ↔ InPendingMix s a := by
  simp only [mixPendingAt_iff, InPendingMix, decode, Except.ok.injEq, OutsideOutput, Nat.not_le, Region.contains_iff,
    State.mixRegion, State.argBase, evenBase_toNat, outputBase]

/-! ### A host's read -/

/-- The bytes a host sees are seen one after the other. -/
theorem seenBytes_of_seesByte {s : State} {a d d' : Nat} {b : Byte} (h : SeesByte s (wrapAddr a) d b d') (n : Nat) :
    s.seenBytes a d (n + 1) = (b :: (s.seenBytes (a + 1) d' n).1, (s.seenBytes (a + 1) d' n).2) := by
  obtain ⟨hopen, hmem⟩ := h
  rw [seenBytes_succ]
  split
  · next hp =>
    obtain ⟨rfl, rfl⟩ := hopen ((mixPendingAt_iff_inPendingMix ..).mp hp)
    rfl
  · next hp =>
    obtain ⟨rfl, rfl⟩ := hmem (fun hin => hp ((mixPendingAt_iff_inPendingMix ..).mpr hin))
    rfl

/-- A 16-bit read returns the sample that the two bytes it sees make, sign-extended (R101). -/
theorem hostLoad_half {s : State} {a : Word} {b0 b1 : Byte} {d1 d2 : Nat}
    (h0 : SeesByte s a.toNat s.draws b0 d1) (h1 : SeesByte s ((a.toNat + 1) % 2 ^ 32) d1 b1 d2) :
    s.hostLoad a .half = { s with readData := BitVec.ofInt 32 (sampleOf s.cfg.sampleEndian b0 b1), draws := d2 } := by
  rw [← Nat.mod_eq_of_lt a.isLt] at h0
  have hseen : s.seenBytes a.toNat s.draws 2 = ([b0, b1], d2) := by
    rw [seenBytes_of_seesByte h0, seenBytes_of_seesByte h1]
    rfl
  simp only [State.hostLoad, Width.bytes, hseen, sampleOf_eq]
  rfl

/-! ### A host's write -/

theorem noteOutputWrite_frame (s : State) (r : Region) :
    s.noteOutputWrite r = { s with outTouched := (s.noteOutputWrite r).outTouched } := by
  unfold State.noteOutputWrite
  split <;> rfl

/-- All of the state that a host's write can change. -/
theorem hostStore_frame (s : State) (a : Word) (width : Width) (v : Word) :
    s.hostStore a width v =
      { s with
        mem := (s.hostStore a width v).mem
        slots := (s.hostStore a width v).slots
        outTouched := (s.hostStore a width v).outTouched } := by
  simp only [State.hostStore, State.noteOutputWrite_mem, State.noteOutputWrite_slots]
  exact noteOutputWrite_frame ..

@[simp] theorem hostStore_mem (s : State) (a : Word) (width : Width) (v : Word) :
    (s.hostStore a width v).mem = memWrite s.cfg.sampleEndian s.mem a.toNat width.bytes v.toNat := by
  simp [State.hostStore]

/-- Of a slot a host's write changes at most the record of writes. -/
theorem hostStore_sameSlot (s : State) (a : Word) (width : Width) (v : Word) (c : Fin 8) :
    SameSlot ((s.hostStore a width v).slot c) (s.slot c) := by
  rw [hostStore_slot]
  split <;> rfl

/-! ### The step of an access off the window -/

theorem step_hostRead {s : State} {a : Word} {width : Width} {rest : List Event} (hcfg : s.cfg.wf = true)
    (hag : s.agenda = .host ⟨a, width, .read⟩ :: rest) (hoff : ¬ TouchesWindow s.cfg ⟨a, width, .read⟩) :
    step s = .next (State.hostLoad { s with agenda := rest } a width) := by
  rw [touchesWindow_iff hcfg] at hoff
  rw [step_event hag]
  exact if_neg hoff

theorem step_hostWrite {s : State} {a v : Word} {width : Width} {rest : List Event} (hcfg : s.cfg.wf = true)
    (hag : s.agenda = .host ⟨a, width, .write v⟩ :: rest) (hoff : ¬ TouchesWindow s.cfg ⟨a, width, .write v⟩) :
    step s = .next (State.hostStore { s with agenda := rest } a width v) := by
  rw [touchesWindow_iff hcfg] at hoff
  rw [step_event hag]
  exact if_neg hoff

/-! ### The clauses of `Obligations.HostSampleAccess` -/

/-- A 16-bit store writes the low half as a sample, and no byte at another address (R62, R101). -/
theorem hostStore_half (s : State) (a v : Word) (hm : Memory.wf s.mem = true) :
    sampleAt s.cfg (s.hostStore a .half v).mem a.toNat = (v.setWidth 16).toInt ∧
      ∀ x, x ≠ a.toNat → x ≠ (a.toNat + 1) % 2 ^ 32 → (s.hostStore a .half v).mem.read x = s.mem.read x := by
  rw [hostStore_mem]
  refine ⟨sampleAt_memWrite s.cfg a.toNat v hm, fun x h0 h1 => read_memWrite_other _ _ _ _ _ fun j hj => ?_⟩
  change j < 2 at hj
  have ha := a.isLt
  simp only [wrapAddr, addrSpace]
  omega

/-- A byte outside the output region of a pending MIX is seen as it is in memory. -/
theorem seesByte_memory {s : State} {a : Nat} (d : Nat)
    (h : ∀ w ch, s.ctrlLatch = some w → decode (.ctrl w) = .ok (.mix ch) → OutsideOutput s a) :
    SeesByte s a d (s.mem.read a) d := by
  refine ⟨fun hin => ?_, fun _ => ⟨rfl, rfl⟩⟩
  obtain ⟨⟨w, ch, hw, hmix⟩, hinside⟩ := hin
  exact absurd (h w ch hw hmix) hinside

/-- A host's write enters the record of exactly the slots that are not Free and whose buffer it meets (R77). -/
theorem hostStore_record (s : State) (a v : Word) (width : Width) (c : Fin 8) :
    ((s.slot c).state ≠ .free → Meets (s.slot c).buffer ⟨a, width.bytes⟩ →
      (s.hostStore a width v).slot c = { s.slot c with hostWrites := ⟨a, width.bytes⟩ :: (s.slot c).hostWrites }) ∧
    ((s.slot c).state = .free ∨ ¬ Meets (s.slot c).buffer ⟨a, width.bytes⟩ →
      (s.hostStore a width v).slot c = s.slot c) := by
  rw [hostStore_slot, meets_iff_overlaps]
  refine ⟨fun hused hmeets => if_pos ⟨hused, hmeets⟩, fun h => if_neg fun ⟨hused, hmeets⟩ => ?_⟩
  exact h.elim hused (fun hno => hno hmeets)

end Sys2Proof.Machine

namespace Sys2Proof.Proofs

open Sys2Proof Sys2Proof.Machine Sys2Proof.Statements

/-- Settles O59: off the window a host's access is `hostStore` or `hostLoad`; a store is read back
(`sampleAt_memWrite`), and a load returns what the two bytes it sees make (`hostLoad_half`). -/
theorem hostSampleAccess : Obligations.HostSampleAccess := by
  refine ⟨fun s a v rest hcfg hag hoff hm => ?_, fun s a rest hcfg hag hoff => ?_,
    fun s a v width rest hcfg hag hoff => ?_⟩
  · obtain ⟨hsample, hother⟩ := hostStore_half { s with agenda := rest } a v hm
    exact ⟨_, step_hostWrite hcfg hag hoff, hsample, hother, hostStore_sameSlot { s with agenda := rest } a .half v,
      hostStore_frame ..⟩
  · have hstep := step_hostRead hcfg hag hoff
    have hseen : ∀ b0 d1 b1 d2, SeesByte s a.toNat s.draws b0 d1 → SeesByte s ((a.toNat + 1) % 2 ^ 32) d1 b1 d2 →
        step s = .next { s with
          agenda := rest, readData := BitVec.ofInt 32 (sampleOf s.cfg.sampleEndian b0 b1), draws := d2 } :=
      fun _ _ _ _ h0 h1 => hstep.trans (congrArg _ (hostLoad_half (s := { s with agenda := rest }) h0 h1))
    refine ⟨⟨_, _, hstep⟩, fun hclear => ?_, hseen⟩
    have haddr : a.toNat % 2 ^ 32 = a.toNat := Nat.mod_eq_of_lt a.isLt
    have h0 := seesByte_memory s.draws fun w ch hw hmix => haddr ▸ hclear w ch 0 hw hmix (by decide)
    have h1 := seesByte_memory s.draws fun w ch hw hmix => hclear w ch 1 hw hmix (by decide)
    rw [sampleAt, haddr]
    exact hseen _ _ _ _ h0 h1
  · exact ⟨_, step_hostWrite hcfg hag hoff, hostStore_record { s with agenda := rest } a v width⟩

end Sys2Proof.Proofs
end

section
/-! SUPPORT. The family of 20_memory.md: a pending control command and what it will run on (R76, R267). -/

namespace Sys2Proof.Machine

open Sys2Proof.Statements

/-- Equal slots differ in nothing. -/
theorem sameSlot_of_slots {s t : State} (h : t.slots = s.slots) (c : Fin 8) : SameSlot (t.slot c) (s.slot c) := by
  rw [State.slot_congr h]
  exact rfl

/-- A step from `s` to `t` leaves the latched control word, all it will run on, and what the last command left. An item
that the step does not write has its default proof. -/
structure KeepsCommand (s t : State) : Prop where
  ctrlLatch : t.ctrlLatch = s.ctrlLatch := by simp
  ctrlArg0 : t.ctrlArg0 = s.ctrlArg0 := by simp
  ctrlArg1 : t.ctrlArg1 = s.ctrlArg1 := by simp
  ctrlArg2 : t.ctrlArg2 = s.ctrlArg2 := by simp
  sampleCount : t.sampleCount = s.sampleCount := by simp
  ctrlCode : t.ctrlCode = s.ctrlCode := by simp
  ctrlResult : t.ctrlResult = s.ctrlResult := by simp
  slots : ∀ c : Fin 8, SameSlot (t.slot c) (s.slot c) := by exact sameSlot_of_slots (by simp)

/-- Every control command empties the latch when it ends (R122). -/
theorem ControlEffect.ctrlLatch {s t : State} {i : Instr} (e : ControlEffect s i t) : t.ctrlLatch = none := by
  cases e <;> rfl

theorem OutputEffect.keepsCommand {s t : State} {i : Instr} {a : List Event} {d : Nat}
    (e : OutputEffect { s with agenda := a, draws := d } i t) : KeepsCommand s t := by
  cases e <;> exact {}

theorem AnswerEffect.keepsCommand {s t : State} {id : Nat} {ans : PortAnswer} {a : List Event}
    (e : AnswerEffect { s with agenda := a } id ans t) : KeepsCommand s t := by
  cases e <;> exact {}

/-- The step of a register access is its instruction's. -/
theorem step_of_accessesRegister {s : State} {i : Instr} (h : AccessesRegister s i) :
    ∃ off access rest, decode (.mmio off .word access) = .ok i ∧ step s = exec i { s with agenda := rest } := by
  obtain ⟨off, access, hev, hi⟩ := h
  obtain ⟨rest, hag⟩ := List.head?_eq_some_iff.mp hev
  exact ⟨off, access, rest, hi, (step_registerAccess hag).trans (execRaw_ok hi _)⟩

/-- While a command is pending, a write to a command or operand register of CTRL is dropped (R121, R123). -/
theorem ctrlPortWrite_busy {s : State} {w : Word} (hw : s.ctrlLatch = some w) (u : State) :
    s.ctrlPortWrite u = { s with ctrlOvr := true } := by
  simp [State.ctrlPortWrite, State.ctrlBusy, hw]

/-- While a command is pending, no register access writes what it will run on: the accesses that could are dropped. -/
theorem access_keepsCommand {s t : State} {i : Instr} {w : Word} {a : List Event} (hi : i.format = .mmio)
    (hw : s.ctrlLatch = some w) (e : exec i { s with agenda := a } = .next t) : KeepsCommand s t := by
  have hdrop : ∀ u, (.next (State.ctrlPortWrite { s with agenda := a } u) : Result) = .next t → KeepsCommand s t := by
    intro u hu
    rw [ctrlPortWrite_busy (s := { s with agenda := a }) hw] at hu
    cases hu
    exact {}
  cases accessEffect_of_exec hi e with
  | ctrlAccepted v | ctrlArg0 v | ctrlArg1 v | ctrlArg2 v => exact hdrop _ e
  | answered | ctrlDropped | ctrlStatus | masterVol | lockWritten | lockTaken | outDropped | outAccepted | outArg0
  | outArg1 | outStatus => exact {}

/-- A host's read of memory, a Port read and a step of an engine with nothing to do write none of it. -/
theorem KeepsCommand.of_data (s : State) (a : List Event) (r : Word) (p : Byte) (d : Nat) :
    KeepsCommand s { s with agenda := a, readData := r, portData := p, draws := d } := {}

theorem step_keepsCommand {s t : State} {w : Word} (e : step s = .next t) (hw : s.ctrlLatch = some w) :
    t.ctrlLatch = none ∨ KeepsCommand s t := by
  cases step_effect e with
  | control i a d _ hrun heff => exact .inl heff.ctrlLatch
  | reset a hev => exact .inl rfl
  | output i a d _ hrun heff => exact .inr heff.keepsCommand
  | answered a id ans _ hev heff => exact .inr heff.keepsCommand
  | access i a _ hrun heff =>
    obtain ⟨off, access, rest, hi, hstep⟩ := step_of_accessesRegister hrun
    obtain ⟨-, -, hfmt⟩ := decodeMmio_ok hi
    exact .inr (access_keepsCommand hfmt hw (hstep.symm.trans e))
  | stored a addr width v =>
    have hslots := hostStore_sameSlot { s with agenda := a } addr width v
    rw [hostStore_frame] at hslots ⊢
    exact .inr { slots := hslots }
  | waited | loaded | portRead => exact .inr (.of_data ..)

end Sys2Proof.Machine

namespace Sys2Proof.Proofs

open Sys2Proof Sys2Proof.Machine Sys2Proof.Statements

/-- Settles O58: by the inversion of a step; a control command and reset empty the latch, and every other step keeps
the command (`KeepsCommand`). -/
theorem pendingCommandIsStable : Obligations.PendingCommandIsStable := by
  intro s t w e hw
  refine (step_keepsCommand e hw).imp_right fun h => ?_
  exact ⟨h.ctrlLatch.trans hw, h.ctrlArg0, h.ctrlArg1, h.ctrlArg2, h.sampleCount, h.ctrlCode, h.ctrlResult, h.slots⟩

end Sys2Proof.Proofs
end

section
/-! SUPPORT. The family of 30_encoding.md: the fields of a command word as arithmetic (R91, R94, R100, R103), and the
commands that only complete (R97, R98). -/

namespace Sys2Proof

open Sys2Proof.Statements

/-! ### The fields of a word by division -/

/-- OP is the lowest byte of a word on either port (R91, R94). -/
theorem opField_toNat (w : Word) : (w.extractLsb' 0 8).toNat = w.toNat % 256 := by
  simp [BitVec.extractLsb'_toNat]

/-- CH is the byte above OP (R91). -/
theorem chField_eq (w : Word) : w.extractLsb' 8 8 = BitVec.ofNat 8 (w.toNat / 256 % 256) := by
  apply BitVec.eq_of_toNat_eq
  simp [BitVec.extractLsb'_toNat, Nat.shiftRight_eq_div_pow]

/-- A field that runs up to bit 31, as RSV does on either port, is non-zero when the quotient by its place is. -/
theorem topField_ne_zero_iff (w : Word) {start len : Nat} (h : start + len = 32) :
    w.extractLsb' start len ≠ 0 ↔ w.toNat / 2 ^ start ≠ 0 := by
  have hlt : w.toNat / 2 ^ start < 2 ^ len :=
    Nat.div_lt_of_lt_mul (by rw [← pow_add, h]; exact w.isLt)
  rw [ne_eq, ← BitVec.toNat_inj, BitVec.extractLsb'_toNat, Nat.shiftRight_eq_div_pow, Nat.mod_eq_of_lt hlt]
  rfl

/-! ### The decoders by arithmetic (R100) -/

theorem decodeCtrl_eq_controlCommand (w : Word) : decodeCtrl w = controlCommand w := by
  have hrsv : w.extractLsb' 16 16 ≠ 0 ↔ w.toNat / 65536 ≠ 0 := topField_ne_zero_iff w rfl
  simp only [decodeCtrl, controlCommand, bne_iff_ne, hrsv, chField_eq, opField_toNat]
  split
  · rfl
  · split <;> simp_all

theorem decodeOut_eq_outputCommand (w : Word) : decodeOut w = outputCommand w := by
  have hrsv : w.extractLsb' 8 24 ≠ 0 ↔ w.toNat / 256 ≠ 0 := topField_ne_zero_iff w rfl
  simp only [decodeOut, outputCommand, bne_iff_ne, hrsv, opField_toNat]
  by_cases h : w.toNat / 256 = 0
  · -- a word below 256 is its own OP
    have hop : w.toNat % 256 = w.toNat := by omega
    rw [if_neg (not_not_intro h), hop]
    split <;> simp_all
  · rw [if_pos h, if_neg (by omega), if_neg (by omega), if_neg (by omega), if_neg (by omega)]

/-- A CTRL word with RSV bits or a reserved opcode is no command (R97). -/
theorem decodeCtrl_illegal {w : Word} (h : w.toNat / 65536 ≠ 0 ∨ 8 < w.toNat % 256) :
    decodeCtrl w = .illegalCtrl w := by
  rw [decodeCtrl_eq_controlCommand, controlCommand]
  rcases h with hrsv | hop
  · exact if_pos hrsv
  · have hne : ∀ k ≤ 8, w.toNat % 256 ≠ k := fun k hk => by omega
    simp [hne]

/-- An OUT word with RSV bits or a reserved opcode is no command (R97). -/
theorem decodeOut_illegal {w : Word} (h : w.toNat / 256 ≠ 0 ∨ 3 < w.toNat % 256) :
    decodeOut w = .illegalOut w := by
  have hne : ∀ k ≤ 3, w.toNat ≠ k := fun k hk => by omega
  simp [decodeOut_eq_outputCommand, outputCommand, hne]

/-- OP 0 is NOP, whatever CH is (R92, R98). -/
theorem decodeCtrl_nop (ch : BitVec 8) : decodeCtrl (BitVec.ofNat 32 (256 * ch.toNat)) = .nop ch := by
  have hch : ch.toNat < 256 := ch.isLt
  have hw : (BitVec.ofNat 32 (256 * ch.toNat)).toNat = 256 * ch.toNat := Nat.mod_eq_of_lt (by omega)
  have hrsv : 256 * ch.toNat / 65536 = 0 := by omega
  simp [decodeCtrl_eq_controlCommand, controlCommand, hw, hrsv, Nat.mod_eq_of_lt hch]

/-! ### The encoder by shifts (R103) -/

theorem ctrlWord_eq_shift_or (op ch : BitVec 8) : ctrlWord op ch = (ch.setWidth 32 <<< 8) ||| op.setWidth 32 := by
  have hch : ch.toNat <<< 8 < 2 ^ 32 := by
    have := ch.isLt
    rw [Nat.shiftLeft_eq]
    omega
  apply BitVec.eq_of_toNat_eq
  calc (ctrlWord op ch).toNat
    _ = ((0 : BitVec 16) ++ ch).toNat <<< 8 ||| op.toNat := BitVec.toNat_append _ op
    _ = ch.toNat <<< 8 ||| op.toNat := by
      rw [BitVec.toNat_append]
      simp
    _ = ((ch.setWidth 32 <<< 8) ||| op.setWidth 32).toNat := by
      rw [BitVec.toNat_or, BitVec.toNat_shiftLeft, BitVec.toNat_setWidth_of_le (by decide),
        BitVec.toNat_setWidth_of_le (by decide), Nat.mod_eq_of_lt hch]

namespace Machine

/-! ### Acceptance by an idle port (R121) -/

theorem ctrlPortWrite_idle {s : State} (h : s.ctrlLatch = none) (u : State) : s.ctrlPortWrite u = u := by
  simp [State.ctrlPortWrite, State.ctrlBusy, h]

theorem outPortWrite_idle {s : State} (h : s.outPhase = .idle) (u : State) : s.outPortWrite u = u := by
  simp [State.outPortWrite, State.outBusy, h]

end Machine

end Sys2Proof

namespace Sys2Proof.Proofs

open Sys2Proof Sys2Proof.Machine Sys2Proof.Statements

/-- Settles O10: each decoder is the arithmetic on the word. -/
theorem decodingFollowsTheOpcodeMaps : Obligations.DecodingFollowsTheOpcodeMaps :=
  fun w => ⟨congrArg _ (decodeCtrl_eq_controlCommand w), congrArg _ (decodeOut_eq_outputCommand w)⟩

/-- Settles O24: an illegal word is decoded as such by either port, an idle port accepts any word, and the step of an
illegal command is its completion. -/
theorem illegalWordsOnlyComplete : Obligations.IllegalWordsOnlyComplete := by
  constructor
  · intro s w h
    exact ⟨congrArg _ (decodeCtrl_illegal h), fun hidle => congrArg _ (ctrlPortWrite_idle hidle _), rfl⟩
  · intro s w h
    exact ⟨congrArg _ (decodeOut_illegal h), fun hidle => congrArg _ (outPortWrite_idle hidle _), rfl⟩

/-- Settles O11: a CTRL word is its handle shifted by 8, with the opcode below; the three examples evaluate. -/
theorem commandWordArithmetic : Obligations.CommandWordArithmetic := by
  refine ⟨fun h => ?_, by decide, by decide, by decide⟩
  have hword (op : BitVec 8) := congrArg Raw.ctrl (ctrlWord_eq_shift_or op h)
  exact ⟨hword 0x02, hword 0x03, hword 0x04, hword 0x05, hword 0x06⟩

/-- Settles O23: the words with OP 0 decode to NOP and ONOP, whose step is a completion with OK. -/
theorem noOpsOnlyComplete : Obligations.NoOpsOnlyComplete :=
  fun _ ch => ⟨congrArg _ (decodeCtrl_nop ch), rfl, rfl, rfl⟩

end Sys2Proof.Proofs
end

section
/-! SUPPORT. The family of 40_register_access.md: what a write to a port stores or drops, and the value of each register
that a read puts together (R121 to R134). -/

namespace Sys2Proof.Machine

open Sys2Proof.Statements

/-! ### What a write stores -/

/-- While an output-port command is pending or waits, a write to a command or operand register of OUT is dropped (R121,
R123). -/
theorem outPortWrite_busy {s : State} (h : s.outPhase ≠ .idle) (u : State) :
    s.outPortWrite u = { s with outOvr := true } := by
  simp [State.outPortWrite, State.outBusy, h]

/-- A signed word clamped to [0, 0x8000] and stored: only a word in the range is stored as it is (R125, R157). -/
theorem ofInt_clamp_unity (w : Word) : BitVec.ofInt 32 (clamp w.toInt 0 unity) = clampedVolume w := by
  unfold clamp clampedVolume
  split
  · rfl
  · split
    · next habove => exact (if_pos habove).symm
    · next hbelow => exact BitVec.ofInt_toInt.trans (if_neg hbelow).symm

theorem masterVolIn_eq_clampedVolume (w : Word) : masterVolIn w = clampedVolume w := ofInt_clamp_unity w

theorem clampedVolume_toNat_le (w : Word) : (clampedVolume w).toNat ≤ 0x8000 :=
  masterVolIn_eq_clampedVolume w ▸ masterVolIn_le w

/-- A write to a status register clears OVR with bit 9 of the word, and else leaves it (R130). -/
theorem ovrAfterWrite_eq_ite (ovr : Bool) (w : Word) :
    ovrAfterWrite ovr w = if w.toNat / 512 % 2 = 1 then false else ovr := by
  have hbit : w.getLsbD 9 = decide (w.toNat / 512 % 2 = 1) := Nat.testBit_eq_decide_div_mod_eq
  rw [ovrAfterWrite, hbit]
  split
  · next hset => simp [hset]
  · next hclear => simp [hclear]

/-! ### Values put together from other state -/

/-- A read that answers `v` leaves that value as the read's result. -/
theorem next_respond_of_eq {s : State} {v u : Word} (h : v = u) :
    (.next (s.respond v) : Result) = .next { s with readData := u } := by
  rw [h]
  rfl

/-- Fields laid side by side are numbers added at their places. -/
theorem toNat_append_eq_add {m n : Nat} (x : BitVec m) (y : BitVec n) :
    (x ++ y).toNat = 2 ^ n * x.toNat + y.toNat := by
  rw [BitVec.toNat_append, ← Nat.shiftLeft_add_eq_or_of_lt y.isLt, Nat.shiftLeft_eq, Nat.mul_comm]

theorem ResultCode.bits_toNat (code : ResultCode) : code.bits.toNat = codeNumber code := by cases code <;> rfl

theorem SlotState.bits_toNat (st : SlotState) : st.bits.toNat = stateNumber st := by cases st <;> rfl

/-- A status register is its three fields at their places (R129). -/
theorem statusWord_eq_statusValue (ovr busy : Bool) (code : ResultCode) :
    statusWord ovr busy code = statusValue ovr busy code := by
  refine (BitVec.toNat_eq_nat.mp ?_).2
  simp only [statusWord, toNat_append_eq_add, BitVec.toNat_ofBool, ResultCode.bits_toNat, BitVec.ofNat_eq_ofNat,
    BitVec.toNat_ofNat]
  omega

/-- CH_STATE is its two fields at their places (R39). -/
theorem stateWord_eq_ofNat (sl : Slot) :
    sl.stateWord = BitVec.ofNat 32 (stateNumber sl.state + 256 * sl.looping.toNat) := by
  refine (BitVec.toNat_eq_nat.mp ?_).2
  simp only [Slot.stateWord, toNat_append_eq_add, BitVec.toNat_ofBool, SlotState.bits_toNat, BitVec.ofNat_eq_ofNat,
    BitVec.toNat_ofNat]
  omega

/-- CTRL_STATUS as it is read: BUSY is that the latch is full (R31, R129). -/
theorem ctrlStatus_eq_statusValue (s : State) :
    s.ctrlStatus = statusValue s.ctrlOvr (s.ctrlLatch != none) s.ctrlCode := by
  have hbusy : s.ctrlBusy = (s.ctrlLatch != none) := by
    unfold State.ctrlBusy
    cases s.ctrlLatch <;> rfl
  rw [State.ctrlStatus, statusWord_eq_statusValue, hbusy]

/-- OUT_STATUS as it is read: BUSY is that the phase is not Idle (R36, R129). -/
theorem outStatus_eq_statusValue (s : State) : s.outStatus = statusValue s.outOvr (s.outPhase != .idle) s.outCode :=
  statusWord_eq_statusValue ..

/-- A bit as a register of its own. -/
theorem setWidth_ofBool (b : Bool) : ((BitVec.ofBool b).setWidth 32 : Word) = if b then 1 else 0 := by cases b <;> rfl

/-- The HW registers while a reservation is held (R35). -/
theorem hwRegisters_held {s : State} {r : Reservation} (h : s.hw = some r) :
    s.hwState = 1 ∧ s.hwHandle = r.handle ∧ s.hwFrames = r.frames := by
  simp [State.hwState, State.hwHandle, State.hwFrames, h]

/-- The HW registers without a reservation (R35). -/
theorem hwRegisters_none {s : State} (h : s.hw = none) : s.hwState = 0 ∧ s.hwHandle = 0 ∧ s.hwFrames = 0 := by
  simp [State.hwState, State.hwHandle, State.hwFrames, h]

/-! ### The channel bank -/

/-- While no command is pending a bank read returns the register (R127). -/
theorem bankRead_idle {s : State} (h : s.ctrlLatch = none) (v : Word) : s.bankRead v = s.respond v := by
  simp [State.bankRead, State.ctrlBusy, h]

/-- While a command is pending a bank read returns the next free value, whichever register it names (R127, log 8). -/
theorem bankRead_busy {s : State} {w : Word} (h : s.ctrlLatch = some w) (v : Word) :
    s.bankRead v = { s with readData := Config.freeWord s.draws, draws := s.draws + 1 } := by
  simp [State.bankRead, State.ctrlBusy, h]

end Sys2Proof.Machine

namespace Sys2Proof.Proofs

open Sys2Proof Sys2Proof.Machine Sys2Proof.Statements

/-- Settles O17: MASTER_VOL takes the clamped word (`masterVolIn_eq_clampedVolume`) in every state, and a read returns
what it holds. -/
theorem masterVolumeWriteAndRead : Obligations.MasterVolumeWriteAndRead := by
  refine ⟨fun s w => ?_, clampedVolume_toNat_le, fun s => rfl⟩
  rw [← masterVolIn_eq_clampedVolume]
  rfl

/-- Settles O4: a step is its event's, and each of the three events runs what its transfer decodes to. -/
theorem stepRunsTheDecodedInstruction : Obligations.StepRunsTheDecodedInstruction := by
  intro s i rest
  refine ⟨fun off a hag hi => ?_, fun w hag hw hi => ?_, fun w hag hw hi => ?_⟩
  · exact (step_registerAccess hag).trans (execRaw_ok hi _)
  · cases hi
    exact (step_event hag).trans (ctrlStep_full hw)
  · cases hi
    exact (step_event hag).trans (outStep_pending hw)

/-- Settles O15: each port accepts a command word while it is idle and drops it while it is busy; the example reads the
status of a full latch. -/
theorem commandWritesAreAcceptedOrDropped : Obligations.CommandWritesAreAcceptedOrDropped := by
  refine ⟨fun s w hidle => congrArg _ (ctrlPortWrite_idle hidle _),
    fun s w v hbusy => congrArg _ (ctrlPortWrite_busy hbusy _),
    fun s w hidle => congrArg _ (outPortWrite_idle hidle _),
    fun s w hbusy => congrArg _ (outPortWrite_busy hbusy _), fun s t hidle hovr hcode e => ?_⟩
  cases (congrArg _ (ctrlPortWrite_idle hidle _)).symm.trans e
  have hstatus : State.ctrlStatus { s with ctrlLatch := some 0x0302 } = 0x100 := by
    rw [ctrlStatus_eq_statusValue, hovr, hcode]
    rfl
  exact next_respond_of_eq hstatus

/-- Settles O16: a write to an operand register is a port's write, done or dropped as a command is; a read returns what
is stored. -/
theorem operandRegisters : Obligations.OperandRegisters := by
  refine ⟨fun s v hidle => ?_, fun s v w hbusy => ?_, fun s v hidle => ?_, fun s v hbusy => ?_,
    fun s => ⟨rfl, rfl, rfl, rfl, rfl⟩⟩
  · have hdone (u : State) : (.next (s.ctrlPortWrite u) : Result) = .next u := congrArg _ (ctrlPortWrite_idle hidle u)
    exact ⟨hdone _, hdone _, hdone _⟩
  · have hdropped (u : State) : (.next (s.ctrlPortWrite u) : Result) = .next { s with ctrlOvr := true } :=
      congrArg _ (ctrlPortWrite_busy hbusy u)
    exact ⟨hdropped _, hdropped _, hdropped _⟩
  · have hdone (u : State) : (.next (s.outPortWrite u) : Result) = .next u := congrArg _ (outPortWrite_idle hidle u)
    exact ⟨hdone _, hdone _⟩
  · have hdropped (u : State) : (.next (s.outPortWrite u) : Result) = .next { s with outOvr := true } :=
      congrArg _ (outPortWrite_busy hbusy u)
    exact ⟨hdropped _, hdropped _⟩

/-- Settles O18: the status words are their fields at their places, and OVR after a write is `ovrAfterWrite_eq_ite`. -/
theorem statusRegisters : Obligations.StatusRegisters := by
  refine ⟨fun s => ?_, fun s w => ⟨fun hset => ?_, fun hclear => ?_⟩⟩
  · exact ⟨next_respond_of_eq (ctrlStatus_eq_statusValue s), next_respond_of_eq (outStatus_eq_statusValue s)⟩
  · have hovr (ovr : Bool) : ovrAfterWrite ovr w = false := by rw [ovrAfterWrite_eq_ite, if_pos hset]
    simp [exec, execWrCtrlStatus, execWrOutStatus, hovr]
  · have hovr (ovr : Bool) : ovrAfterWrite ovr w = ovr := by rw [ovrAfterWrite_eq_ite, if_neg (by omega)]
    simp [exec, execWrCtrlStatus, execWrOutStatus, hovr]

/-- Settles O19: the read returns the old HELD as a word, and the write stores bit 0 as the parity of the word. -/
theorem lockReadAndWrite : Obligations.LockReadAndWrite := by
  refine ⟨fun s => ?_, fun s w => ?_⟩
  · exact next_respond_of_eq (s := { s with lockHeld := true }) (setWidth_ofBool s.lockHeld)
  · have hbit : w.getLsbD 0 = decide (w.toNat % 2 = 1) := Nat.testBit_zero w.toNat
    rw [← hbit]
    rfl

/-- Settles O20: each read returns its register, the HW registers by whether there is a reservation; no write to one
does anything. -/
theorem readOnlyRegisters : Obligations.ReadOnlyRegisters := by
  refine ⟨fun s => ⟨rfl, rfl, rfl, rfl, rfl, rfl⟩, fun s r hheld => ?_, fun s hnone => ?_,
    fun s w => ⟨rfl, rfl, rfl, rfl, rfl, rfl, rfl⟩⟩
  · obtain ⟨hstate, hhandle, hframes⟩ := hwRegisters_held hheld
    exact ⟨next_respond_of_eq hstate, next_respond_of_eq hhandle, next_respond_of_eq hframes⟩
  · obtain ⟨hstate, hhandle, hframes⟩ := hwRegisters_none hnone
    exact ⟨next_respond_of_eq hstate, next_respond_of_eq hhandle, next_respond_of_eq hframes⟩

/-- Settles O21: every bank read is a `bankRead` of its field, which answers the field while CTRL is idle and a free
value while it is busy. -/
theorem channelBankAccess : Obligations.ChannelBankAccess := by
  refine ⟨fun s c hidle => ?_, fun s c w hbusy => ?_, fun s c k w => rfl⟩
  · have hread (v : Word) : (.next (s.bankRead v) : Result) = .next { s with readData := v } :=
      congrArg _ (bankRead_idle hidle v)
    rw [← stateWord_eq_ofNat]
    exact ⟨hread _, hread _, hread _, hread _, hread _, hread _, hread _, hread _⟩
  · have hread (v : Word) : (.next (s.bankRead v) : Result) =
        .next { s with readData := Config.freeWord s.draws, draws := s.draws + 1 } :=
      congrArg _ (bankRead_busy hbusy v)
    simp only [List.forall_mem_cons, List.not_mem_nil]
    exact ⟨hread _, hread _, hread _, hread _, hread _, hread _, hread _, hread _, nofun⟩

end Sys2Proof.Proofs
end

section
/-! SUPPORT. The family of 41_channel_lifecycle.md: the handle checks, and what each channel command stores in its
slot (R150 to R158, R162). -/

namespace Sys2Proof.Machine

open Sys2Proof.Statements

/-! ### The five channel commands, each by its change of a slot -/

theorem exec_free (h : BitVec 8) (s : State) :
    exec (.free h) s = channelCommand false h s (fun _ => Slot.freeSlot) := rfl

theorem exec_submit (h : BitVec 8) (s : State) :
    exec (.submit h) s = channelCommand true h s (submittedSlot s.argBase s.argFrames) := rfl

theorem exec_setVolume (h : BitVec 8) (s : State) :
    exec (.setVolume h) s = channelCommand true h s (volumeSlot (volIn s.cfg s.argVolL) (volIn s.cfg s.argVolR)) := rfl

theorem exec_fadeOut (h : BitVec 8) (s : State) :
    exec (.fadeOut h) s = channelCommand true h s (fadedOutSlot s.cfg.divRounding s.argCount) := rfl

theorem exec_fadeIn (h : BitVec 8) (s : State) :
    exec (.fadeIn h) s = channelCommand true h s (fadedInSlot s.cfg.divRounding s.argCount) := rfl

/-! ### The handle checks -/

/-- A handle that names no slot is rejected (R150). -/
theorem channelCommand_outOfRange {h : BitVec 8} (hh : 8 ≤ h.toNat) (rejectFree : Bool) (s : State) (f : Slot → Slot) :
    channelCommand rejectFree h s f = .next (s.completeCtrl .invalidChannel) :=
  dif_neg (Nat.not_lt.mpr hh)

/-- A command that asks for a used slot rejects a Free one (R150). -/
theorem channelCommand_free {h : BitVec 8} {s : State} {c : Fin 8} (hc : h.toNat = c.val)
    (hfree : (s.slot c).state = .free) (f : Slot → Slot) :
    channelCommand true h s f = .next (s.completeCtrl .invalidChannel) := by
  rcases channelCommand_cases true h s f with ⟨hh, hused, -⟩ | ⟨-, e⟩
  · obtain rfl : c = ⟨h.toNat, hh⟩ := Fin.ext hc.symm
    exact absurd ⟨rfl, hfree⟩ hused
  · exact e

/-- A command that passes its checks changes the slot its handle names, and ends with OK. -/
theorem channelCommand_slot {rejectFree : Bool} {h : BitVec 8} {s : State} {c : Fin 8} (hc : h.toNat = c.val)
    (hused : rejectFree = true → (s.slot c).state ≠ .free) (f : Slot → Slot) :
    channelCommand rejectFree h s f = .next ((s.setSlot c (f (s.slot c))).completeCtrl .ok) := by
  have hh : h.toNat < 8 := hc ▸ c.isLt
  obtain rfl : ⟨h.toNat, hh⟩ = c := Fin.ext hc
  exact channelCommand_done hh hused

/-- The end of an earlier command leaves no trace in the next. -/
theorem channelCommand_completeCtrl (rejectFree : Bool) (h : BitVec 8) (s : State) (code : ResultCode)
    (f : Slot → Slot) : channelCommand rejectFree h (s.completeCtrl code) f = channelCommand rejectFree h s f := rfl

theorem rejected_of_outOfRange {h : BitVec 8} (hh : 8 ≤ h.toNat) (s : State) :
    ∀ i ∈ [Instr.free h, .submit h, .setVolume h, .fadeOut h, .fadeIn h], Rejected i s := by
  simp only [List.forall_mem_cons, List.not_mem_nil, Rejected, exec_free, exec_submit, exec_setVolume, exec_fadeOut,
    exec_fadeIn, channelCommand_outOfRange hh]
  exact ⟨rfl, rfl, rfl, rfl, rfl, nofun⟩

theorem rejected_of_free {h : BitVec 8} {s : State} {c : Fin 8} (hc : h.toNat = c.val)
    (hfree : (s.slot c).state = .free) :
    ∀ i ∈ [Instr.submit h, .setVolume h, .fadeOut h, .fadeIn h], Rejected i s := by
  simp only [List.forall_mem_cons, List.not_mem_nil, Rejected, exec_submit, exec_setVolume, exec_fadeOut, exec_fadeIn,
    channelCommand_free hc hfree]
  exact ⟨rfl, rfl, rfl, rfl, nofun⟩

/-! ### What is stored -/

theorem State.setSlot_self (s : State) (c : Fin 8) : s.setSlot c (s.slot c) = s := by
  simp [State.setSlot, State.slot]

theorem State.setSlot_setSlot (s : State) (c : Fin 8) (a b : Slot) : (s.setSlot c a).setSlot c b = s.setSlot c b := by
  simp [State.setSlot]

theorem freeSlot_eq_freeSlotValue : Slot.freeSlot = freeSlotValue := by decide

/-- `vol_in` stores the operand, clamped only if the parameter says so (R157). -/
theorem volIn_eq_storedVolume (cfg : Config) (w : Word) : volIn cfg w.toInt = storedVolume cfg w := by
  unfold volIn storedVolume
  split
  · exact ofInt_clamp_unity w
  · exact BitVec.ofInt_toInt

theorem argLooping_eq_odd (s : State) : s.argLooping = decide (s.ctrlArg2.toNat % 2 = 1) :=
  Nat.testBit_zero s.ctrlArg2.toNat

theorem argBase_eq_ofNat (s : State) : s.argBase = BitVec.ofNat 32 (s.ctrlArg0.toNat / 2 * 2) :=
  BitVec.eq_of_toNat_eq (by
    rw [State.argBase, evenBase_toNat, BitVec.toNat_ofNat]
    omega)

theorem argCount_eq_zero {s : State} : s.argCount = 0 ↔ s.ctrlArg0 = 0 :=
  ⟨fun h => BitVec.eq_of_toNat_eq h, fun h => congrArg BitVec.toNat h⟩

/-! ### The steps of the fades -/

/-- The quotient of a fade-in rounds down under either rounding (R156). -/
theorem quot_fadeFull (r : Rounding) (n : Nat) : quot r fadeFull n = (2 ^ 24 / n : Nat) := by
  cases r
  · exact (Int.ofNat_tdiv fadeFull n).symm
  · exact (Int.ofNat_fdiv fadeFull n).symm

/-- Under Floor the steps of `n` passes together reach the full level, with less than `n` to spare (R160). -/
theorem mul_fadeStepSize_floor {n : Nat} (hn : 0 < n) :
    2 ^ 24 ≤ n * fadeStepSize .floor n ∧ n * fadeStepSize .floor n < 2 ^ 24 + n := by
  have hdiv := Nat.div_add_mod (2 ^ 24 + (n - 1)) n
  have hmod := Nat.mod_lt (2 ^ 24 + (n - 1)) hn
  simp only [fadeStepSize]
  omega

/-- The quotient of a fade-out rounds its size down or up, as DIV_ROUNDING says (R155, R160). -/
theorem quot_neg_fadeFull (r : Rounding) {n : Nat} (hn : n ≠ 0) :
    quot r (-fadeFull) n = -(fadeStepSize r n : Int) := by
  cases r with
  | towardZero => exact (Int.neg_tdiv fadeFull n).trans (congrArg Neg.neg (quot_fadeFull .towardZero n))
  | floor =>
    have hpos : 0 < n := Nat.pos_of_ne_zero hn
    obtain ⟨henough, hspare⟩ := mul_fadeStepSize_floor hpos
    generalize fadeStepSize .floor n = q at *
    rw [quot, Int.fdiv_eq_ediv_of_nonneg _ (Int.natCast_nonneg n), Int.ediv_eq_iff_of_pos (Int.natCast_pos.mpr hpos),
      fadeFull, Int.neg_mul, Int.mul_comm]
    omega

/-- A step of FADE_OUT as it is stored: minus its size. -/
theorem ofInt_quot_neg_fadeFull (r : Rounding) {n : Nat} (hn : n ≠ 0) :
    BitVec.ofInt 32 (quot r (-fadeFull) n) = -BitVec.ofNat 32 (fadeStepSize r n) := by
  rw [quot_neg_fadeFull r hn, BitVec.ofInt_neg, BitVec.ofInt_natCast]

theorem ofInt_quot_fadeFull (r : Rounding) (n : Nat) :
    BitVec.ofInt 32 (quot r fadeFull n) = BitVec.ofNat 32 (2 ^ 24 / n) := by
  rw [quot_fadeFull, BitVec.ofInt_natCast]

/-- FADE_IN never changes the state of a slot (R156). -/
theorem fadedInSlot_state (r : Rounding) (n : Nat) (sl : Slot) : (fadedInSlot r n sl).state = sl.state := by
  unfold fadedInSlot
  split <;> rfl

/-- SUBMIT sets again everything a FADE_IN sets (R162). -/
theorem submittedSlot_fadedInSlot (base frames : Word) (r : Rounding) (n : Nat) (sl : Slot) :
    submittedSlot base frames (fadedInSlot r n sl) = submittedSlot base frames sl := by
  unfold fadedInSlot
  split <;> rfl

/-- A FADE_IN that is done before a SUBMIT of the same slot (R162). -/
theorem submit_after_fadedInSlot {h : BitVec 8} {s : State} {c : Fin 8} (hc : h.toNat = c.val)
    (hused : (s.slot c).state ≠ .free) (r : Rounding) (n : Nat) :
    exec (.submit h) ((s.setSlot c (fadedInSlot r n (s.slot c))).completeCtrl .ok) = exec (.submit h) s := by
  have hfaded : ((s.setSlot c (fadedInSlot r n (s.slot c))).slot c).state ≠ .free := by
    rwa [State.slot_setSlot_same, fadedInSlot_state]
  rw [exec_submit, channelCommand_completeCtrl, channelCommand_slot hc (fun _ => hfaded), State.slot_setSlot_same,
    State.setSlot_setSlot, submittedSlot_fadedInSlot, exec_submit, channelCommand_slot hc (fun _ => hused)]
  rfl

end Sys2Proof.Machine

namespace Sys2Proof.Proofs

open Sys2Proof Sys2Proof.Machine Sys2Proof.Statements

/-- Settles O25: the two ways `channelCommand` rejects a handle; FREE takes a Free slot because it does not ask. -/
theorem handleChecks : Obligations.HandleChecks :=
  ⟨fun s _ hh => rejected_of_outOfRange hh s,
    fun s h _ hc hfree => ⟨rejected_of_free hc hfree, _,
      (exec_free h s).trans (channelCommand_slot hc Bool.noConfusion _), rfl⟩⟩

/-- Settles O26: the pick of ALLOC is the least Free slot, by `firstFree_eq_some`. -/
theorem allocTakesTheLeastFreeSlot : Obligations.AllocTakesTheLeastFreeSlot := by
  refine ⟨fun s ch c hfree hleast => ?_, fun s ch hnone => ?_⟩
  · have hpick : s.firstFree = some c := firstFree_eq_some.mpr ⟨hfree, hleast⟩
    rw [← argLooping_eq_odd, ← volIn_eq_storedVolume, ← volIn_eq_storedVolume]
    simp only [exec, execAlloc, hpick]
    rfl
  · have hpick : s.firstFree = none := firstFree_eq_none.mpr hnone
    simp only [exec, execAlloc, hpick]
    rfl

/-- Settles O27: FREE stores FREE_SLOT, and storing what a slot holds changes nothing. -/
theorem freeLeavesFreeSlot : Obligations.FreeLeavesFreeSlot := by
  refine ⟨fun s h c hc => ?_, fun s h hh => rejected_of_outOfRange hh s _ (by simp)⟩
  have hdone : exec (.free h) s = .next ((s.setSlot c freeSlotValue).completeCtrl .ok) :=
    freeSlot_eq_freeSlotValue ▸ (exec_free h s).trans (channelCommand_slot hc Bool.noConfusion _)
  refine ⟨hdone, fun hheld => ?_⟩
  rw [hdone, ← hheld, State.setSlot_self]
  rfl

/-- Settles O28: `submittedSlot` with the even base as arithmetic. -/
theorem submitStartsPlayback : Obligations.SubmitStartsPlayback := by
  refine ⟨fun s h c hc hused => ?_, fun s h hh => rejected_of_outOfRange hh s _ (by simp),
    fun s h c hc hfree => rejected_of_free hc hfree _ (by simp)⟩
  rw [← argBase_eq_ofNat]
  exact channelCommand_slot hc (fun _ => hused) _

/-- Settles O29: `volumeSlot` with both operands through `vol_in`. -/
theorem setVolumeStoresBothVolumes : Obligations.SetVolumeStoresBothVolumes := by
  refine ⟨fun s h c hc hused => ?_, fun s h hh => rejected_of_outOfRange hh s _ (by simp),
    fun s h c hc hfree => rejected_of_free hc hfree _ (by simp)⟩
  rw [← volIn_eq_storedVolume, ← volIn_eq_storedVolume]
  exact channelCommand_slot hc (fun _ => hused) _

/-- Settles O30: `fadedOutSlot` for either N, with its quotient as the step size of R160. -/
theorem fadeOutSetsTheStep : Obligations.FadeOutSetsTheStep := by
  refine ⟨fun s h c hc hused => ?_, fun s h hh => rejected_of_outOfRange hh s _ (by simp),
    fun s h c hc hfree => rejected_of_free hc hfree _ (by simp)⟩
  have hdone := (exec_fadeOut h s).trans (channelCommand_slot hc (fun _ => hused) _)
  rw [hdone]
  refine ⟨fun hzero => ?_, fun hramp => ?_⟩
  · rw [fadedOutSlot, if_pos (argCount_eq_zero.mpr hzero)]
    rfl
  · have hn : s.argCount ≠ 0 := fun h0 => hramp (argCount_eq_zero.mp h0)
    rw [fadedOutSlot, if_neg hn, ofInt_quot_neg_fadeFull _ hn]
    rfl

/-- Settles O31: `fadedInSlot` for either N; its quotient has no rounding to choose. -/
theorem fadeInSetsTheStep : Obligations.FadeInSetsTheStep := by
  refine ⟨fun s h c hc hused => ?_, fun s h hh => rejected_of_outOfRange hh s _ (by simp),
    fun s h c hc hfree => rejected_of_free hc hfree _ (by simp)⟩
  have hdone := (exec_fadeIn h s).trans (channelCommand_slot hc (fun _ => hused) _)
  rw [hdone]
  refine ⟨fun hzero => ?_, fun hramp => ?_⟩
  · rw [fadedInSlot, if_pos (argCount_eq_zero.mpr hzero)]
    rfl
  · rw [fadedInSlot, if_neg (fun h0 => hramp (argCount_eq_zero.mp h0)), ofInt_quot_fadeFull]
    rfl

/-- Settles O34: a FADE_IN that is done changes only what SUBMIT sets again (`submit_after_fadedInSlot`), and one that is
rejected only what the end of SUBMIT sets again. -/
theorem fadeInBeforeSubmitIsLost : Obligations.FadeInBeforeSubmitIsLost := by
  intro s t h base frames e
  rw [exec_fadeIn] at e
  rcases channelCommand_cases true h s (fadedInSlot s.cfg.divRounding s.argCount) with ⟨hh, hused, e'⟩ | ⟨-, e'⟩
  · cases e'.symm.trans e
    exact submit_after_fadedInSlot (s := { s with ctrlArg0 := base, ctrlArg1 := frames }) (c := ⟨h.toNat, hh⟩) rfl
      (fun hfree => hused ⟨rfl, hfree⟩) _ _
  · cases e'.symm.trans e
    exact channelCommand_completeCtrl true h { s with ctrlArg0 := base, ctrlArg1 := frames } .invalidChannel _

end Sys2Proof.Proofs
end

section
/-! SUPPORT. The family of 41_channel_lifecycle.md: how many passes a fade-out takes (R160, R161, R275). -/

namespace Sys2Proof.Machine

open Sys2Proof.Statements

/-! ### A slot over several passes -/

/-- All a pass is to a slot: its own turn, under parameters and a sample count the pass keeps (R181). -/
theorem exec_mix_slot (ch : BitVec 8) (s : State) :
    ∃ t, exec (.mix ch) s = .next t ∧ t.cfg = s.cfg ∧ t.sampleCount = s.sampleCount ∧
      ∀ c : Fin 8, t.slot c = mixedSlot s.cfg.loopWrapGap s.sampleCount.toNat (s.slot c) := by
  obtain ⟨v, d, fs, e, -, -, hv⟩ := execMix_cases ch s
  refine ⟨_, e, by simp, by simp, fun c => ?_⟩
  rw [← hv c]
  simp [State.slot]

/-- `k` passes are `k` turns of each slot. -/
theorem passes_slot (ch : BitVec 8) (k : Nat) (s : State) :
    ∃ u, passes ch k s = .next u ∧
      ∀ c : Fin 8, u.slot c = (mixedSlot s.cfg.loopWrapGap s.sampleCount.toNat)^[k] (s.slot c) := by
  induction k generalizing s with
  | zero => exact ⟨s, rfl, fun c => rfl⟩
  | succ k ih =>
    obtain ⟨t, hmix, hcfg, hcount, hslot⟩ := exec_mix_slot ch s
    obtain ⟨u, hrest, hturns⟩ := ih t
    refine ⟨u, by simp only [passes, hmix, hrest], fun c => ?_⟩
    rw [hturns, hcfg, hcount, hslot, Function.iterate_succ_apply]

/-! ### A fade-out of a looping slot -/

/-- A looping slot in a fade-out with steps of size `q` that has got down to level `lvl`, and has ended at 0. -/
structure FadingDown (q lvl : Nat) (sl : Slot) : Prop where
  state : sl.state = if lvl = 0 then .idle else .fadingOut
  level : sl.fadeLevel.toNat = lvl
  inRange : lvl ≤ fadeFull
  step : sl.fadeStep.toInt = -(q : Int)
  looping : sl.looping = true
  nonempty : sl.bufLen.toNat ≠ 0

/-- FADE_OUT with N > 0 starts one from the level the slot has (R155). -/
theorem fadedOutSlot_fadingDown {r : Rounding} {n : Nat} {sl : Slot} (hn : n ≠ 0) (hlvl : sl.fadeLevel.toNat ≠ 0)
    (hmax : sl.fadeLevel.toNat ≤ fadeFull) (hloop : sl.looping = true) (hlen : sl.bufLen.toNat ≠ 0) :
    FadingDown (fadeStepSize r n) sl.fadeLevel.toNat (fadedOutSlot r n sl) := by
  obtain ⟨⟨hlo, hhi⟩, -⟩ := quot_fadeFull_bounds r hn
  rw [fadedOutSlot, if_neg hn]
  exact ⟨(if_neg hlvl).symm, rfl, hmax, (toInt_ofInt_fade hlo hhi).trans (quot_neg_fadeFull r hn), hloop, hlen⟩

/-- A FADE_OUT that passes its checks leaves what `fadedOutSlot` says in the slot its handle names. -/
theorem fadeOut_slot {s t : State} {h : BitVec 8} {c : Fin 8} (hc : h.toNat = c.val)
    (hused : (s.slot c).state ≠ .free) (e : exec (.fadeOut h) s = .next t) :
    t.slot c = fadedOutSlot s.cfg.divRounding s.argCount (s.slot c) := by
  cases ((exec_fadeOut h s).trans (channelCommand_slot hc (fun _ => hused) _)).symm.trans e
  exact State.slot_setSlot_same ..

/-- The cursor of a looping slot with a buffer moves, and nothing else of it changes (R183). -/
theorem cursorLoop_looping (gap : Bool) (n : Nat) {sl : Slot} (hloop : sl.looping = true)
    (hlen : sl.bufLen.toNat ≠ 0) : ∃ p, cursorLoop gap sl n = { sl with position := p } := by
  obtain ⟨p, st, hcur, -, -⟩ := cursorLoop_cases gap sl n hlen
  have hkept : (cursorLoop gap sl n).state = sl.state := by
    by_contra hne
    simpa [hloop] using (cursorLoop_state_ne hne).1
  rw [hcur] at hkept
  exact ⟨p, by rw [hcur, ← hkept]⟩

/-- The fade update of a slot FadingOut whose step does not rise: the level, and Idle when that is 0 (R188). -/
theorem fadeUpdate_fadingOut {sl : Slot} (hst : sl.state = .fadingOut) (hstep : sl.fadeStep.toInt ≤ 0) :
    fadeUpdate sl = { sl with
      fadeLevel := BitVec.ofInt 32 (nextLevel sl)
      state := if nextLevel sl = 0 then .idle else .fadingOut } := by
  unfold fadeUpdate
  by_cases hend : nextLevel sl = 0
  · simp [hst, hend]
  · simp [hst, hend, Int.not_lt.mpr hstep]

theorem nextLevel_fadingDown {q lvl : Nat} {sl : Slot} (h : FadingDown q lvl sl) :
    nextLevel sl = (lvl - q : Nat) := by
  have hmax := h.inRange
  rw [nextLevel, h.level, h.step, clamp]
  split <;> [omega; (split <;> omega)]

/-- Where the cursor is does not matter to a fade. -/
theorem FadingDown.withPosition {q lvl : Nat} {sl : Slot} (h : FadingDown q lvl sl) (p : Word) :
    FadingDown q lvl { sl with position := p } :=
  ⟨h.state, h.level, h.inRange, h.step, h.looping, h.nonempty⟩

/-- The fade update takes one step off the level, down to 0 (R188). -/
theorem fadeUpdate_fadingDown {q lvl : Nat} {sl : Slot} (h : FadingDown q lvl sl) (hrunning : lvl ≠ 0) :
    FadingDown q (lvl - q) (fadeUpdate sl) := by
  have hst : sl.state = .fadingOut := h.state.trans (if_neg hrunning)
  have hstep : sl.fadeStep.toInt ≤ 0 := by rw [h.step]; omega
  have hmax : lvl - q ≤ fadeFull := (Nat.sub_le ..).trans h.inRange
  rw [fadeUpdate_fadingOut hst hstep, nextLevel_fadingDown h]
  refine ⟨if_congr Int.natCast_eq_zero rfl rfl, ?_, hmax, h.step, h.looping, h.nonempty⟩
  rw [BitVec.ofInt_natCast, BitVec.toNat_ofNat]
  exact Nat.mod_eq_of_lt (hmax.trans_lt (by decide))

/-- A pass takes one step off the level of a fade that runs, and leaves one that has ended (R181, R188). -/
theorem mixedSlot_fadingDown (gap : Bool) (n : Nat) {q lvl : Nat} {sl : Slot} (h : FadingDown q lvl sl) :
    FadingDown q (lvl - q) (mixedSlot gap n sl) := by
  by_cases hended : lvl = 0
  · have hidle : sl.state = .idle := h.state.trans (if_pos hended)
    have hkept : mixedSlot gap n sl = sl := by simp [mixedSlot, Slot.active, hidle]
    rw [hkept, hended, Nat.zero_sub]
    exact hended ▸ h
  · have hst : sl.state = .fadingOut := h.state.trans (if_neg hended)
    obtain ⟨p, hcur⟩ := cursorLoop_looping gap n h.looping h.nonempty
    have hturn : mixedSlot gap n sl = fadeUpdate { sl with position := p } := by
      simp [mixedSlot, Slot.active, hst, h.nonempty, hcur]
    rw [hturn]
    exact fadeUpdate_fadingDown (h.withPosition p) hended

/-- After `k` passes `k` steps are off the level (R161). -/
theorem passes_fadingDown (ch : BitVec 8) (k : Nat) {q lvl : Nat} {s : State} {c : Fin 8}
    (h : FadingDown q lvl (s.slot c)) :
    ∃ u, passes ch k s = .next u ∧ FadingDown q (lvl - k * q) (u.slot c) := by
  obtain ⟨u, hpasses, hslot⟩ := passes_slot ch k s
  refine ⟨u, hpasses, hslot c ▸ ?_⟩
  clear hpasses hslot
  induction k with
  | zero => simpa using h
  | succ k ih =>
    rw [Function.iterate_succ_apply', Nat.succ_mul, ← Nat.sub_sub]
    exact mixedSlot_fadingDown _ _ ih

/-! ### The number of passes -/

/-- Under TowardZero the steps of N passes reach the full level exactly if none is rounded: for the divisors of 2^24,
which are the powers of two up to it (R161). -/
theorem mul_fadeStepSize_towardZero (n : Nat) :
    2 ^ 24 ≤ n * fadeStepSize .towardZero n ↔ ∃ j ≤ 24, n = 2 ^ j := by
  have hdvd : n ∣ 2 ^ 24 ↔ 2 ^ 24 ≤ n * (2 ^ 24 / n) :=
    ⟨fun h => (Nat.mul_div_cancel' h).ge, fun h => ⟨_, h.antisymm (Nat.mul_div_le ..)⟩⟩
  exact hdvd.symm.trans (Nat.dvd_prime_pow Nat.prime_two)

end Sys2Proof.Machine

namespace Sys2Proof.Proofs

open Sys2Proof Sys2Proof.Machine Sys2Proof.Statements

/-- Settles O45: FADE_OUT leaves the slot `FadingDown`, which every pass keeps with one step less. -/
theorem fadeOutLength : Obligations.FadeOutLength := by
  refine ⟨fun s t ch h c k hc hused hloop hlen hpos hmax hramp e => ?_,
    fun N hN => ⟨mul_fadeStepSize_towardZero N, (mul_fadeStepSize_floor hN).1⟩⟩
  have hlen' : (s.slot c).bufLen.toNat ≠ 0 := fun h0 => hlen (BitVec.eq_of_toNat_eq h0)
  have hn : s.argCount ≠ 0 := fun h0 => hramp (argCount_eq_zero.mp h0)
  have hstart := fadedOutSlot_fadingDown (r := s.cfg.divRounding) hn hpos.ne' hmax hloop hlen'
  rw [← fadeOut_slot hc hused e] at hstart
  obtain ⟨u, hpasses, hend⟩ := passes_fadingDown ch k hstart
  refine ⟨u, hpasses, fun hleft => ⟨?_, hend.level⟩, fun hreached => ?_⟩
  · exact hend.state.trans (if_neg (Nat.sub_ne_zero_of_lt hleft))
  · have hzero := Nat.sub_eq_zero_of_le hreached
    exact ⟨hend.state.trans (if_pos hzero), BitVec.eq_of_toNat_eq (hend.level.trans hzero)⟩

end Sys2Proof.Proofs
end

section
/-! SUPPORT. The family of 42_mixing_pass.md: SET_SAMPLE_COUNT and the gain formula (R12, R180, R185, R186, R191). -/

namespace Sys2Proof.Machine

open Sys2Proof.Statements

/-! ### The primitives in the words of the statements -/

theorem roundup64_isRoundUp64 (n : Nat) : IsRoundUp64 n (roundup64 n) := by
  rw [roundup64_eq]
  exact ⟨Nat.dvd_mul_left .., by omega, fun k hk hn => by omega⟩

theorem sat16_eq_saturate (x : Int) : sat16 x = saturate x := by
  unfold sat16 clamp saturate
  split <;> omega

/-- Truncation divides the size and keeps the sign; flooring is the quotient with a remainder that is not negative
(R12). -/
theorem quot_eq_quotient (r : Rounding) (a : Int) (b : Nat) : quot r a b = quotient r a b := by
  cases r with
  | towardZero =>
    obtain ⟨n, rfl | rfl⟩ := a.eq_nat_or_neg
    all_goals obtain rfl | hn := n.eq_zero_or_pos
    all_goals simp [quot, quotient, Int.sign_eq_one_of_pos, *]
  | floor => exact Int.fdiv_eq_ediv_of_nonneg a (Int.natCast_nonneg b)

/-! ### The three quotients of the gain formula -/

theorem scale_eq_scaled (r : Rounding) (src vol g mv : Int) : scale r src vol g mv = scaled r src vol g mv := by
  simp only [scale, scaled, sat16_eq_saturate, quot_eq_quotient]
  rfl

/-- A quotient of what is not negative does not depend on the rounding, and is not negative (R192). -/
theorem quot_of_nonneg {a : Int} (h : 0 ≤ a) (b : Nat) :
    quot .towardZero a b = quot .floor a b ∧ 0 ≤ quot .floor a b := by
  have hb := Int.natCast_nonneg b
  have hfloor : quot .floor a b = a / b := Int.fdiv_eq_ediv_of_nonneg a hb
  exact ⟨(Int.tdiv_eq_ediv_of_nonneg h).trans hfloor.symm, hfloor ▸ Int.ediv_nonneg h hb⟩

theorem scale_rounding_of_nonneg {src vol g mv : Int} (hsrc : 0 ≤ src) (hvol : 0 ≤ vol) (hg : 0 ≤ g)
    (hmv : 0 ≤ mv) :
    scale .towardZero src vol g mv = scale .floor src vol g mv := by
  obtain ⟨e2, h2⟩ := quot_of_nonneg (Int.mul_nonneg hsrc hvol) unity
  obtain ⟨e4, h4⟩ := quot_of_nonneg (Int.mul_nonneg h2 hg) fadeMax
  obtain ⟨e6, -⟩ := quot_of_nonneg (Int.mul_nonneg h4 hmv) unity
  simp only [scale, e2, e4, e6]

/-- At unity every quotient is exact (R191). -/
theorem scale_unity (r : Rounding) {v : Int} (hlo : -32768 ≤ v) (hhi : v ≤ 32767) :
    scale r v 0x8000 256 0x8000 = v := by
  have hunity : quot r (v * 0x8000) unity = v := quot_mul_cancel r v (by decide)
  have hgain : quot r (v * 256) fadeMax = v := quot_mul_cancel r v (by decide)
  simp only [scale, hunity, hgain, sat16_of_mem hlo hhi]

/-! ### Bounds (R186) -/

theorem abs_mul_le_mul {a b m n : Int} (ha : |a| ≤ m) (hb : |b| ≤ n) : |a * b| ≤ m * n :=
  abs_mul a b ▸ mul_le_mul ha hb (abs_nonneg b) ((abs_nonneg a).trans ha)

theorem abs_quot_le (r : Rounding) {a b m : Int} (hb : 0 < b) (h : |a| ≤ m * b) : |quot r a b| ≤ m :=
  abs_le.mpr (quot_bounds r hb (neg_le_of_abs_le h) (le_of_abs_le h))

end Sys2Proof.Machine

namespace Sys2Proof.Proofs

open Sys2Proof Sys2Proof.Machine Sys2Proof.Statements

/-- Settles O36: the value rounded up is `roundup64_isRoundUp64`, and the command changes SAMPLE_COUNT alone. -/
theorem setSampleCountRoundsUp : Obligations.SetSampleCountRoundsUp :=
  fun s _ => ⟨roundup64 s.ctrlArg0.toNat, roundup64_isRoundUp64 _, rfl⟩

/-- Settles O37: `scale` is `scaled`, by its quotients one after the other; the vectors evaluate. -/
theorem gainFormula : Obligations.GainFormula :=
  ⟨scale_eq_scaled, by decide, by decide, by decide, by decide, by decide, by decide, by decide,
    fun _ _ _ _ => scale_rounding_of_nonneg⟩

/-- Settles O38: each product is bounded by the product of the bounds, and each quotient gives back its divisor. -/
theorem intermediatesFitIn64Bits : Obligations.IntermediatesFitIn64Bits := by
  rintro r src vol g mv t1 t2 t3 t4 t5 t6 hsrc hvol hg0 hg hmv0 hmv rfl rfl rfl rfl rfl rfl
  have hgain : |g| ≤ 2 ^ 8 := (abs_of_nonneg hg0).trans_le hg
  have hmaster : |mv| ≤ 2 ^ 15 := (abs_of_nonneg hmv0).trans_le hmv
  have h1 : |src * vol| ≤ 2 ^ 46 := abs_mul_le_mul hsrc hvol
  have h2 : |quot r (src * vol) 0x8000| ≤ 2 ^ 31 := abs_quot_le r (by decide) h1
  have h3 := abs_mul_le_mul h2 hgain
  have h4 : |quot r _ 256| ≤ 2 ^ 31 := abs_quot_le r (by decide) h3
  have h5 := abs_mul_le_mul h4 hmaster
  have h6 : |quot r _ 0x8000| ≤ 2 ^ 31 := abs_quot_le r (by decide) h5
  exact ⟨rfl, h1, h2, h3, h4, h5, h6⟩

/-- Settles O39: a sample scaled at unity is itself, so the accumulator holds it before the second is added. -/
theorem unityIsTheIdentity : Obligations.UnityIsTheIdentity := by
  intro r v1 v2 hlo1 hhi1 hlo2 hhi2
  rw [scale_unity r hlo1 hhi1, scale_unity r hlo2 hhi2, Int.zero_add, sat16_of_mem hlo1 hhi1]
  refine ⟨rfl, sat16_eq_saturate _, fun hhalf1 hhalf2 => ?_⟩
  rw [abs_lt] at hhalf1 hhalf2
  exact sat16_of_mem (by omega) (by omega)

end Sys2Proof.Proofs
end

section
/-! SUPPORT. The family of 42_mixing_pass.md: a slot after a pass in closed form (R181, R182, R183, R188). -/

namespace Sys2Proof.Machine

open Sys2Proof.Statements

/-! ### The fade update in closed form (R188) -/

theorem nextLevel_eq_levelAfter (sl : Slot) : nextLevel sl = levelAfter sl := by
  unfold nextLevel clamp levelAfter fadeFull
  split <;> [omega; (split <;> omega)]

theorem fadeUpdate_eq (sl : Slot) :
    fadeUpdate sl = { sl with
      fadeLevel := BitVec.ofNat 32 (levelAfter sl)
      state := if sl.state = .fadingOut ∧ levelAfter sl = 0 then .idle else sl.state
      fadeStep := if 0 < sl.fadeStep.toInt ∧ levelAfter sl = 2 ^ 24 then 0 else sl.fadeStep } := by
  have hfull : (levelAfter sl : Int) = fadeFull ↔ levelAfter sl = 2 ^ 24 := Int.ofNat_inj
  simp only [fadeUpdate, nextLevel_eq_levelAfter, BitVec.ofInt_natCast, Int.natCast_eq_zero, hfull]
  split
  · next hended => simp [hended.2]
  · split <;> rfl

/-! ### The cursor in closed form (R183) -/

/-- The slot is at the end of a buffer that does not loop (R182). -/
abbrev Slot.exhausted (sl : Slot) : Prop := sl.bufLen.toNat ≤ sl.position.toNat ∧ sl.looping = false

/-- The slot after one output frame that does not exhaust it. -/
def Slot.stepped (gap : Bool) (sl : Slot) : Slot :=
  { sl with position :=
      if sl.bufLen.toNat ≤ sl.position.toNat then if gap then 0 else 1 else sl.position + 1 }

theorem cursorLoop_succ (gap : Bool) (sl : Slot) (n : Nat) :
    cursorLoop gap sl (n + 1) =
      if sl.exhausted then { sl with state := .idle } else cursorLoop gap (sl.stepped gap) n := by
  by_cases hend : sl.bufLen.toNat ≤ sl.position.toNat
  · by_cases hloop : sl.looping = true
    · cases gap <;> simp [cursorLoop, Slot.stepped, hend, hloop]
    · simp [cursorLoop, hend, hloop]
  · simp [cursorLoop, Slot.stepped, hend]

/-- Where the cursor stands after one output frame, in numbers. -/
theorem stepped_position (gap : Bool) {sl : Slot} (hpos : sl.position.toNat ≤ sl.bufLen.toNat) :
    (sl.stepped gap).position.toNat =
      if sl.position.toNat = sl.bufLen.toNat then if gap then 0 else 1 else sl.position.toNat + 1 := by
  have hlen := sl.bufLen.isLt
  unfold Slot.stepped
  by_cases hend : sl.position.toNat = sl.bufLen.toNat
  · cases gap <;> simp [hend]
  · have hinside : ¬ sl.bufLen.toNat ≤ sl.position.toNat := by omega
    simp only [hinside, hend, if_false, BitVec.toNat_add]
    exact Nat.mod_eq_of_lt (by simp; omega)

theorem stepped_position_le (gap : Bool) {sl : Slot} (hlen : sl.bufLen.toNat ≠ 0)
    (hpos : sl.position.toNat ≤ sl.bufLen.toNat) :
    (sl.stepped gap).position.toNat ≤ (sl.stepped gap).bufLen.toNat := by
  rw [stepped_position gap hpos]
  show _ ≤ sl.bufLen.toNat
  split <;> [(split <;> omega); omega]

theorem cursorAfter_zero (gap : Bool) {sl : Slot} (hpos : sl.position.toNat ≤ sl.bufLen.toNat) :
    cursorAfter gap 0 sl = sl.position.toNat := by
  have hgap : sl.position.toNat % (sl.bufLen.toNat + 1) = sl.position.toNat := Nat.mod_eq_of_lt (by omega)
  simp [cursorAfter, hpos, hgap]

theorem cursorAfter_once (gap : Bool) (n : Nat) {sl : Slot} (hloop : sl.looping = false) :
    cursorAfter gap n sl = min (sl.position.toNat + n) sl.bufLen.toNat := by
  simp [cursorAfter, hloop]

/-- One output frame, then `n` more. -/
theorem cursorAfter_stepped (gap : Bool) (n : Nat) {sl : Slot} (hpos : sl.position.toNat ≤ sl.bufLen.toNat)
    (hmore : ¬ sl.exhausted) : cursorAfter gap n (sl.stepped gap) = cursorAfter gap (n + 1) sl := by
  have hstep := stepped_position gap hpos
  have hlooping : (sl.stepped gap).looping = sl.looping := rfl
  have hbufLen : (sl.stepped gap).bufLen = sl.bufLen := rfl
  simp only [cursorAfter, hstep, hlooping, hbufLen]
  by_cases hend : sl.position.toNat = sl.bufLen.toNat
  · have hloop : sl.looping ≠ false := fun h => hmore ⟨hend.ge, h⟩
    simp only [hend, hloop]
    cases gap
    · rcases n with _ | n
      · simp
      · simp [show sl.bufLen.toNat + (n + 1 + 1) - 1 = n + 1 + sl.bufLen.toNat by omega, Nat.add_comm 1]
    · simp [show sl.bufLen.toNat + (n + 1) = n + (sl.bufLen.toNat + 1) by omega]
  · have hinside : sl.position.toNat % sl.bufLen.toNat = sl.position.toNat := Nat.mod_eq_of_lt (by omega)
    simp only [hend, if_false, Nat.add_right_comm _ 1 n, Nat.add_assoc _ n 1]
    rcases n with _ | n <;> simp [hinside]

/-- Whether the buffer runs out in one output frame and `n` more. -/
theorem runsOut_stepped (gap : Bool) (n : Nat) {sl : Slot} (hpos : sl.position.toNat ≤ sl.bufLen.toNat)
    (hmore : ¬ sl.exhausted) :
    ((sl.stepped gap).looping = false ∧ (sl.stepped gap).bufLen.toNat < (sl.stepped gap).position.toNat + n) ↔
      (sl.looping = false ∧ sl.bufLen.toNat < sl.position.toNat + (n + 1)) := by
  refine and_congr_right fun hloop => ?_
  have hinside : sl.position.toNat ≠ sl.bufLen.toNat := fun h => hmore ⟨h.ge, hloop⟩
  rw [stepped_position gap hpos, if_neg hinside, Nat.add_assoc, Nat.add_comm 1]
  rfl

/-- The cursor after a pass, and Idle where a buffer that does not loop has run out (R182, R183). -/
theorem cursorLoop_eq (gap : Bool) (n : Nat) {sl : Slot} (hlen : sl.bufLen.toNat ≠ 0)
    (hpos : sl.position.toNat ≤ sl.bufLen.toNat) :
    cursorLoop gap sl n = { sl with
      position := BitVec.ofNat 32 (cursorAfter gap n sl)
      state := if sl.looping = false ∧ sl.bufLen.toNat < sl.position.toNat + n then .idle else sl.state } := by
  induction n generalizing sl with
  | zero => simp [cursorLoop, cursorAfter_zero gap hpos, Nat.not_lt.mpr hpos]
  | succ n ih =>
    rw [cursorLoop_succ]
    split
    · next hexh =>
      obtain ⟨hend, hloop⟩ := hexh
      have hstays : cursorAfter gap (n + 1) sl = sl.position.toNat := by
        rw [cursorAfter_once gap _ hloop]
        omega
      have hout : sl.bufLen.toNat < sl.position.toNat + (n + 1) := by omega
      simp [hstays, hloop, hout]
    · next hmore =>
      rw [ih (sl := sl.stepped gap) hlen (stepped_position_le gap hlen hpos), cursorAfter_stepped gap n hpos hmore]
      simp only [runsOut_stepped gap n hpos hmore]
      rfl

/-! ### The turn of a slot -/

theorem mixedSlot_unprocessed (gap : Bool) (n : Nat) {sl : Slot} (h : ¬ Processed sl) : mixedSlot gap n sl = sl := by
  have hact : sl.active ≠ true := fun hact => h (Slot.active_iff.mp hact)
  simp [mixedSlot, hact]

theorem mixedSlot_empty (gap : Bool) (n : Nat) {sl : Slot} (h : Processed sl) (hempty : sl.bufLen = 0) :
    mixedSlot gap n sl = { sl with state := .idle } := by
  simp [mixedSlot, Slot.active_iff.mpr h, hempty]

theorem mixedSlot_turn (gap : Bool) (n : Nat) {sl : Slot} (h : Processed sl) (hlen : sl.bufLen.toNat ≠ 0) :
    mixedSlot gap n sl = fadeUpdate (cursorLoop gap sl n) := by
  simp [mixedSlot, Slot.active_iff.mpr h, hlen]

theorem bufLen_toNat_ne_zero {sl : Slot} (h : sl.bufLen ≠ 0) : sl.bufLen.toNat ≠ 0 :=
  fun h0 => h (BitVec.eq_of_toNat_eq h0)

/-- The turn of a slot in closed form. -/
theorem mixedSlot_eq_slotAfterPass (gap : Bool) (n : Nat) {sl : Slot} (hpos : sl.position.toNat ≤ sl.bufLen.toNat) :
    mixedSlot gap n sl = slotAfterPass gap n sl := by
  unfold slotAfterPass
  split
  · next hproc => exact mixedSlot_unprocessed gap n hproc
  · next hproc =>
    rw [not_not] at hproc
    split
    · next hempty => exact mixedSlot_empty gap n hproc hempty
    · next hbuf =>
      have hlen := bufLen_toNat_ne_zero hbuf
      rw [mixedSlot_turn gap n hproc hlen, fadeUpdate_eq, cursorLoop_eq gap n hlen hpos]
      by_cases hout : sl.looping = false ∧ sl.bufLen.toNat < sl.position.toNat + n
      · simp [hout, levelAfter]
      · simp [hout, levelAfter]

/-- The cursor of every slot is in its buffer (R40). -/
theorem State.Inv.position_le {s : State} (h : s.Inv) (c : Fin 8) :
    (s.slot c).position.toNat ≤ (s.slot c).bufLen.toNat := by
  obtain ⟨-, -, -, -, -, -, -, hslots, -⟩ := h
  obtain ⟨hpos, -⟩ := hslots c
  exact hpos

/-! ### A buffer that does not loop, played from its start (R197) -/

/-- A slot that plays a buffer of `B` frames once and for which passes of `p` frames in all have run. -/
structure PlaysOnce (B p : Nat) (sl : Slot) : Prop where
  state : sl.state = if p ≤ B then .playing else .idle
  position : sl.position.toNat = min p B
  bufLen : sl.bufLen.toNat = B
  looping : sl.looping = false

/-- A pass that has something to run moves the cursor of such a slot on, or ends the slot. -/
theorem mixedSlot_playsOnce (gap : Bool) {n B p : Nat} {sl : Slot} (hn : n ≠ 0) (h : PlaysOnce B p sl) :
    PlaysOnce B (p + n) (mixedSlot gap n sl) := by
  obtain ⟨hst, hpos, rfl, hloop⟩ := h
  rw [mixedSlot_eq_slotAfterPass gap n (by omega)]
  by_cases hplays : p ≤ sl.bufLen.toNat
  · have hplaying : sl.state = .playing := hst.trans (if_pos hplays)
    rw [slotAfterPass, if_neg (by simp [hplaying])]
    split
    · next hempty =>
      have hzero : sl.bufLen.toNat = 0 := congrArg BitVec.toNat hempty
      exact ⟨(if_neg (by omega)).symm, show sl.position.toNat = _ by omega, rfl, hloop⟩
    · have hcursor : cursorAfter gap n sl = min (p + n) sl.bufLen.toNat := by
        rw [cursorAfter_once gap n hloop]
        omega
      refine ⟨?_, ?_, rfl, hloop⟩
      · by_cases hfits : p + n ≤ sl.bufLen.toNat
        · simp [hplaying, hfits, hpos, hplays]
        · have hout : sl.bufLen.toNat < p + n := by omega
          simp [hloop, hpos, hplays, hout]
      · rw [hcursor, BitVec.toNat_ofNat]
        exact Nat.mod_eq_of_lt ((Nat.min_le_right ..).trans_lt sl.bufLen.isLt)
  · have hidle : sl.state = .idle := hst.trans (if_neg hplays)
    rw [slotAfterPass, if_pos (by simp [hidle])]
    exact ⟨hidle.trans (if_neg (by omega)).symm, by omega, rfl, hloop⟩

theorem passes_playsOnce (ch : BitVec 8) (k : Nat) {B : Nat} {s : State} {c : Fin 8} (hn : s.sampleCount.toNat ≠ 0)
    (h : PlaysOnce B 0 (s.slot c)) :
    ∃ u, passes ch k s = .next u ∧ PlaysOnce B (k * s.sampleCount.toNat) (u.slot c) := by
  obtain ⟨u, hpasses, hslot⟩ := passes_slot ch k s
  refine ⟨u, hpasses, hslot c ▸ ?_⟩
  clear hpasses hslot
  induction k with
  | zero => simpa using h
  | succ k ih =>
    rw [Function.iterate_succ_apply', Nat.succ_mul]
    exact mixedSlot_playsOnce _ hn ih

end Sys2Proof.Machine

namespace Sys2Proof.Proofs

open Sys2Proof Sys2Proof.Machine Sys2Proof.Statements

/-- Settles O40: every slot gets its turn, and a turn is `slotAfterPass` wherever the cursor is in the buffer. -/
theorem mixMovesEverySlot : Obligations.MixMovesEverySlot := by
  intro s ch hinv
  obtain ⟨t, e, -, -, hturn⟩ := exec_mix_slot ch s
  exact ⟨t, e, fun c => (hturn c).trans (mixedSlot_eq_slotAfterPass _ _ (hinv.position_le c))⟩

/-- Settles O46: the slot `PlaysOnce`, which every pass keeps with SAMPLE_COUNT frames more. -/
theorem exhaustionTiming : Obligations.ExhaustionTiming := by
  intro s ch c k _ hplaying hloop hstart hn
  have hcount : s.sampleCount.toNat ≠ 0 := fun h => hn (BitVec.eq_of_toNat_eq h)
  have hposition : (s.slot c).position.toNat = 0 := congrArg BitVec.toNat hstart
  obtain ⟨u, hpasses, hend⟩ :=
    passes_playsOnce ch k hcount ⟨hplaying, hposition.trans (Nat.zero_min _).symm, rfl, hloop⟩
  refine ⟨u, hpasses, fun hk => ?_, fun hk => ?_⟩
  · have hfits := (Nat.le_div_iff_mul_le (Nat.pos_of_ne_zero hcount)).mp hk
    exact ⟨hend.state.trans (if_pos hfits), hend.position.trans (Nat.min_eq_left hfits)⟩
  · have hout := (Nat.div_lt_iff_lt_mul (Nat.pos_of_ne_zero hcount)).mp hk
    exact ⟨hend.state.trans (if_neg hout.not_ge),
      BitVec.eq_of_toNat_eq (hend.position.trans (Nat.min_eq_right hout.le))⟩

end Sys2Proof.Proofs
end

section
/-! SUPPORT. The family of 42_mixing_pass.md: all that MIX leaves, a silent pass, and a pass of zero frames (R181, R189,
R193, R196). -/

namespace Sys2Proof.Machine

open Sys2Proof.Statements

/-! ### All that MIX leaves -/

/-- The state after MIX: the end of the command, the accumulators in the output region, a turn for each slot, and the
draws of the pass. -/
structure MixEffect (s t : State) : Prop where
  frame : t = { s with
    ctrlLatch := none, ctrlCode := .ok, slots := t.slots, mem := t.mem, outTouched := t.outTouched, draws := t.draws }
  mem : t.mem = writeFrames s.cfg.sampleEndian s.mem (outputBase s) (mixPass s).2
  slots : t.slots = (mixPass s).1.slots
  draws : t.draws = (mixPass s).1.draws

theorem argBase_toNat (s : State) : s.argBase.toNat = outputBase s := evenBase_toNat s.ctrlArg0

theorem exec_mix (ch : BitVec 8) (s : State) : ∃ t, exec (.mix ch) s = .next t ∧ MixEffect s t := by
  obtain ⟨v, d, hpass, -, -⟩ := mixPass_cases s
  have hexec : exec (.mix ch) s = .next (({ s with
      slots := v, draws := d, mem := writeFrames s.cfg.sampleEndian s.mem s.argBase.toNat (mixPass s).2 } :
        State).noteOutputWrite s.mixRegion |>.completeCtrl .ok) := by
    simp only [exec, execMix, ctrlDone, hpass]
  refine ⟨_, hexec, ?_, ?_, ?_, ?_⟩
  · generalize writeFrames .. = m
    unfold State.noteOutputWrite
    split <;> rfl
  · simp [argBase_toNat]
  · simp [hpass]
  · simp [hpass]

theorem MixEffect.of_exec {ch : BitVec 8} {s t : State} (e : exec (.mix ch) s = .next t) : MixEffect s t := by
  obtain ⟨u, e', h⟩ := exec_mix ch s
  cases e'.symm.trans e
  exact h

theorem mixPass_length (s : State) : (mixPass s).2.length = s.sampleCount.toNat := by
  obtain ⟨-, -, -, hlen, -⟩ := mixPass_cases s
  exact hlen

/-- A slot after MIX has had its turn. -/
theorem MixEffect.slot {s t : State} (h : MixEffect s t) (c : Fin 8) :
    t.slot c = mixedSlot s.cfg.loopWrapGap s.sampleCount.toNat (s.slot c) := by
  obtain ⟨v, d, hpass, -, hv⟩ := mixPass_cases s
  rw [State.slot, h.slots, hpass, ← hv c]

/-- An address outside the output region is none that a pass writes (R189). -/
theorem wrapAddr_ne_of_outsideOutput {s : State} {a : Word} (h : OutsideOutput s a.toNat) :
    ∀ j < 4 * s.sampleCount.toNat, wrapAddr (outputBase s + j) ≠ a.toNat := by
  have ha := a.isLt
  have hbase := s.ctrlArg0.isLt
  intro j hj
  simp only [OutsideOutput, outputBase, wrapAddr, addrSpace] at *
  omega

/-! ### A silent pass (R193) -/

/-- A pass that processes no slot leaves the accumulators at zero. -/
theorem mixPass_silent {s : State} (h : ∀ c : Fin 8, ¬ Processed (s.slot c)) :
    mixPass s = (s, List.replicate s.sampleCount.toNat (0, 0)) := by
  refine List.foldl_fixed' (fun c => ?_) allSlots
  have hact : (s.slot c).active ≠ true := fun hc => h c (Slot.active_iff.mp hc)
  simp [mixSlot, hact]

/-- Zero bytes stored: an address reads 0 if it did before or is one of those written. -/
theorem read_storeBytes_zero {m : Memory} {a n x : Nat} (hm : m.wf = true)
    (h : m.read x = 0 ∨ ∃ j < n, wrapAddr (a + j) = x) : (m.storeBytes a (List.replicate n 0)).read x = 0 := by
  induction n generalizing m a with
  | zero =>
    rcases h with h | ⟨j, hj, -⟩
    · exact h
    · exact absurd hj (Nat.not_lt_zero j)
  | succ n ih =>
    refine ih (Memory.wf_write 0 (wrapAddr_lt a) hm) ?_
    rw [Memory.read_write _ _ _ hm]
    rcases h with h | ⟨_ | j, hj, hx⟩
    · left; split <;> [rfl; exact h]
    · left; exact if_pos hx
    · right; exact ⟨j, by omega, by rw [← hx]; congr 1; omega⟩

/-- A sample of 0 is two zero bytes in either byte order. -/
theorem memWrite_two_zero (e : Endian) (m : Memory) (a : Nat) : memWrite e m a 2 0 = m.storeBytes a [0, 0] := by
  cases e <;> rfl

/-- Zero frames written are zero bytes stored. -/
theorem writeFrames_zero (e : Endian) (m : Memory) (o n : Nat) :
    writeFrames e m o (List.replicate n (0, 0)) = m.storeBytes o (List.replicate (4 * n) 0) := by
  induction n generalizing m o with
  | zero => rfl
  | succ n ih =>
    rw [List.replicate_succ, Nat.mul_succ, List.replicate_succ, List.replicate_succ, List.replicate_succ,
      List.replicate_succ]
    show writeFrames e (memWrite e (memWrite e m o 2 0) (o + 2) 2 0) (o + 4) _ = _
    rw [ih, memWrite_two_zero, memWrite_two_zero]
    rfl

end Sys2Proof.Machine

namespace Sys2Proof.Proofs

open Sys2Proof Sys2Proof.Machine Sys2Proof.Statements

/-- Settles O41: all that MIX leaves is `MixEffect`, and the output write keeps off every address outside its region. -/
theorem mixCompletesAndItsFrame : Obligations.MixCompletesAndItsFrame := by
  intro s ch
  obtain ⟨t, e, h⟩ := exec_mix ch s
  refine ⟨t, e, h.frame, fun a ha => ?_, e⟩
  rw [h.mem]
  refine read_writeFrames_other _ _ _ _ ?_
  rw [mixPass_length]
  exact wrapAddr_ne_of_outsideOutput ha

/-- Settles O43: the accumulators stay at zero, so zero bytes are stored over the whole output region. -/
theorem silentPassWritesZeros : Obligations.SilentPassWritesZeros := by
  intro s ch hm hsilent
  obtain ⟨t, e, h⟩ := exec_mix ch s
  have hpass := mixPass_silent hsilent
  refine ⟨t, e, by rw [h.slots, hpass], fun k hk => ?_⟩
  have hzero : ∀ j < 2, t.mem.read (wrapAddr (outputBase s + 2 * k + j)) = 0 := by
    intro j hj
    rw [h.mem, hpass, writeFrames_zero]
    exact read_storeBytes_zero hm (.inr ⟨2 * k + j, by omega, by rw [Nat.add_assoc]⟩)
  have hsample : sampleOf s.cfg.sampleEndian 0 0 = 0 := by cases s.cfg.sampleEndian <;> rfl
  exact (congrArg₂ (sampleOf _) (hzero 0 (by decide)) (hzero 1 (by decide))).trans hsample

/-- Settles O44: no frame is written, no cursor moves, and the turn of a processed slot is its fade update. -/
theorem zeroSampleCountStillFades : Obligations.ZeroSampleCountStillFades := by
  intro s ch hzero
  have hcount : s.sampleCount.toNat = 0 := congrArg BitVec.toNat hzero
  obtain ⟨t, e, h⟩ := exec_mix ch s
  have hframes : (mixPass s).2 = [] := List.eq_nil_of_length_eq_zero ((mixPass_length s).trans hcount)
  refine ⟨t, e, by rw [h.mem, hframes]; rfl, fun c => ?_⟩
  rw [h.slot c, hcount]
  generalize s.slot c = sl
  by_cases hproc : Processed sl
  · by_cases hempty : sl.bufLen = 0
    · rw [mixedSlot_empty _ _ hproc hempty]
      exact ⟨rfl, fun h => absurd hproc h, fun _ _ => rfl, fun _ h => absurd hempty h⟩
    · have hturn : mixedSlot s.cfg.loopWrapGap 0 sl = fadeUpdate sl :=
        mixedSlot_turn _ _ hproc (bufLen_toNat_ne_zero hempty)
      rw [hturn, fadeUpdate_eq]
      exact ⟨rfl, fun h => absurd hproc h, fun _ h => absurd h hempty, fun _ _ => rfl⟩
  · rw [mixedSlot_unprocessed _ _ hproc]
    exact ⟨rfl, fun _ => rfl, fun h => absurd h hproc, fun h => absurd h hproc⟩

end Sys2Proof.Proofs
end

section
/-! SUPPORT. The family of 42_mixing_pass.md: the turn of a slot as what it adds to each output frame (R183, R184, R185,
R187), and the frames read back from the output region (R189). -/

namespace Sys2Proof.Machine

open Sys2Proof.Statements

/-! ### The frames a slot plays (R183) -/

theorem framePlayed_of_exhausted (gap : Bool) {sl : Slot} (h : sl.exhausted) (i : Nat) :
    framePlayed gap sl i = none := by
  obtain ⟨hend, hloop⟩ := h
  have hout : ¬ sl.position.toNat + i < sl.bufLen.toNat := by omega
  simp [framePlayed, hloop, hout]

/-- The frame played after one output frame is the next slot's first. -/
theorem framePlayed_stepped (gap : Bool) (i : Nat) {sl : Slot} (hpos : sl.position.toNat ≤ sl.bufLen.toNat)
    (hmore : ¬ sl.exhausted) : framePlayed gap (sl.stepped gap) i = framePlayed gap sl (i + 1) := by
  have hstep := stepped_position gap hpos
  have hstate : (sl.stepped gap).state = sl.state := rfl
  have hlooping : (sl.stepped gap).looping = sl.looping := rfl
  have hbufLen : (sl.stepped gap).bufLen = sl.bufLen := rfl
  simp only [framePlayed, Processed, hstep, hstate, hlooping, hbufLen]
  by_cases hend : sl.position.toNat = sl.bufLen.toNat
  · have hloop : sl.looping ≠ false := fun h => hmore ⟨hend.ge, h⟩
    simp only [hend, hloop]
    cases gap
    · simp [Nat.add_comm 1]
    · simp [show sl.bufLen.toNat + (i + 1) = i + (sl.bufLen.toNat + 1) by omega]
  · simp only [hend, if_false, Nat.add_right_comm _ 1 i, Nat.add_assoc _ i 1]

/-- The frame a slot with a buffer plays at its cursor: none where the wrap takes a frame of its own. -/
theorem framePlayed_zero (gap : Bool) {sl : Slot} (hproc : Processed sl) (hlen : sl.bufLen.toNat ≠ 0)
    (hpos : sl.position.toNat ≤ sl.bufLen.toNat) (hmore : ¬ sl.exhausted) :
    framePlayed gap sl 0 =
      if sl.position.toNat = sl.bufLen.toNat then if gap then none else some 0 else some sl.position.toNat := by
  by_cases hend : sl.position.toNat = sl.bufLen.toNat
  · have hloop : sl.looping ≠ false := fun h => hmore ⟨hend.ge, h⟩
    cases gap <;> simp [framePlayed, hproc, hlen, hloop, hend]
  · have hinside : sl.position.toNat < sl.bufLen.toNat := by omega
    have hmod : sl.position.toNat % (sl.bufLen.toNat + 1) = sl.position.toNat := Nat.mod_eq_of_lt (by omega)
    cases hloop : sl.looping <;> cases gap <;>
      simp [framePlayed, hproc, hlen, hloop, hend, hinside, hmod, Nat.mod_eq_of_lt hinside]

/-- No frame beyond the buffer is played (R183). -/
theorem lt_bufLen_of_framePlayed {gap : Bool} {sl : Slot} {i q : Nat} (h : framePlayed gap sl i = some q) :
    q < sl.bufLen.toNat := by
  simp only [framePlayed] at h
  split at h
  · cases h
  · next hplayed =>
    have hlen : 0 < sl.bufLen.toNat := Nat.pos_of_ne_zero fun h0 => hplayed (.inr h0)
    have hgap : (sl.position.toNat + i) % (sl.bufLen.toNat + 1) < sl.bufLen.toNat + 1 := Nat.mod_lt _ (Nat.succ_pos _)
    split at h
    · split at h
      · cases h; assumption
      · cases h
    · split at h
      · split at h
        · cases h
        · cases h; omega
      · cases h; exact Nat.mod_lt _ hlen

/-! ### A sample of a slot's buffer (R77, R184) -/

/-- A host has written, since SUBMIT, a byte of the lane's sample of frame `q`. -/
def sampleWritten (sl : Slot) (lane : Lane) (q : Nat) : Bool :=
  anyContains sl.hostWrites (wrapAddr (sourceAddr sl q lane)) ||
    anyContains sl.hostWrites (wrapAddr (sourceAddr sl q lane + 1))

/-- The lane's sample of frame `q`: draw number `d` where a host has written it, else the one in memory. -/
def sourceSample (s : State) (sl : Slot) (lane : Lane) (q d : Nat) : Int :=
  if sampleWritten sl lane q then ((Config.freeWord d).setWidth 16).toInt
  else sampleAt s.cfg s.mem (sourceAddr sl q lane)

theorem wrapAddr_wrapAddr_add (a k : Nat) : wrapAddr (wrapAddr a + k) = wrapAddr (a + k) := Nat.mod_add_mod ..

theorem sampleAt_wrapAddr (cfg : Config) (m : Memory) (a : Nat) : sampleAt cfg m (wrapAddr a) = sampleAt cfg m a := by
  simp [sampleAt, wrapAddr, addrSpace]

/-- What is fetched for a sample, and the draws it takes. -/
theorem fetchSample_source (s : State) (sl : Slot) (lane : Lane) (q d : Nat) :
    fetchSample s sl (wrapAddr (sourceAddr sl q lane)) d =
      (sourceSample s sl lane q d, d + (sampleWritten sl lane q).toNat) := by
  unfold fetchSample sourceSample
  rw [wrapAddr_wrapAddr_add, ← sampleAt_eq, sampleAt_wrapAddr]
  cases h : sampleWritten sl lane q
  · rw [sampleWritten] at h; simp [h]
  · rw [sampleWritten] at h; simp [h]

/-! ### What a slot adds to an output frame -/

/-- The lane's sample that the slot plays into output frame `i`, if it plays any, was written by a host. -/
def slotOpen (gap : Bool) (sl : Slot) (i : Nat) (lane : Lane) : Bool :=
  (framePlayed gap sl i).any (sampleWritten sl lane)

/-- How many open samples the slot plays into output frame `i`. -/
def frameOpens (gap : Bool) (sl : Slot) (i : Nat) : Nat :=
  (slotOpen gap sl i .left).toNat + (slotOpen gap sl i .right).toNat

/-- How many open samples the slot plays before output frame `i`. -/
def opensBefore (gap : Bool) (sl : Slot) (i : Nat) : Nat := ((List.range i).map (frameOpens gap sl)).sum

/-- The lane of output frame `i` after the slot's turn, `acc` before it; an open sample is draw number `d`. -/
def share (s : State) (g : Int) (sl : Slot) (lane : Lane) (i d : Nat) (acc : Int) : Int :=
  (framePlayed s.cfg.loopWrapGap sl i).elim acc fun q =>
    saturate (acc + scaled s.cfg.divRounding (sourceSample s sl lane q d) (lane.volume sl) g s.masterVol.toInt)

/-- The number of the draw that an open sample of output frame `i` is, from `d` on (log 30). -/
def drawOf (gap : Bool) (sl : Slot) (d i : Nat) : Lane → Nat
  | .left => d + opensBefore gap sl i
  | .right => d + opensBefore gap sl i + (slotOpen gap sl i .left).toNat

/-- Output frame `i` after the slot's turn, `f` before it, where the turn draws from `d` on. -/
def turnFrame (s : State) (g : Int) (sl : Slot) (d i : Nat) (f : AccFrame) : AccFrame :=
  (share s g sl .left i (drawOf s.cfg.loopWrapGap sl d i .left) f.1,
   share s g sl .right i (drawOf s.cfg.loopWrapGap sl d i .right) f.2)

/-- A slot that plays nothing into an output frame leaves it, and draws nothing. -/
theorem turnFrame_of_none {s : State} {sl : Slot} {i : Nat} (h : framePlayed s.cfg.loopWrapGap sl i = none) (g : Int)
    (d : Nat) (f : AccFrame) : turnFrame s g sl d i f = f := by
  simp [turnFrame, share, h]

theorem frameOpens_of_none {gap : Bool} {sl : Slot} {i : Nat} (h : framePlayed gap sl i = none) :
    frameOpens gap sl i = 0 := by
  simp [frameOpens, slotOpen, h]

theorem opensBefore_of_none {gap : Bool} {sl : Slot} (h : ∀ i, framePlayed gap sl i = none) (n : Nat) :
    opensBefore gap sl n = 0 := by
  have hzero : frameOpens gap sl = fun _ => 0 := funext fun i => frameOpens_of_none (h i)
  simp [opensBefore, hzero]

theorem mapIdx_turnFrame_of_none {s : State} {sl : Slot} (h : ∀ i, framePlayed s.cfg.loopWrapGap sl i = none)
    (g : Int) (d : Nat) (fs : List AccFrame) : fs.mapIdx (turnFrame s g sl d) = fs := by
  have hid : turnFrame s g sl d = fun _ f => f := funext₂ fun i f => turnFrame_of_none (h i) g d f
  rw [hid]
  exact List.ext_getElem (by simp) (by simp)

section Stepped
variable {gap : Bool} {sl : Slot} (hpos : sl.position.toNat ≤ sl.bufLen.toNat) (hmore : ¬ sl.exhausted)
include hpos hmore

theorem slotOpen_stepped (i : Nat) (lane : Lane) :
    slotOpen gap (sl.stepped gap) i lane = slotOpen gap sl (i + 1) lane := by
  rw [slotOpen, framePlayed_stepped gap i hpos hmore]
  rfl

theorem opensBefore_stepped (n : Nat) :
    opensBefore gap sl (n + 1) = frameOpens gap sl 0 + opensBefore gap (sl.stepped gap) n := by
  simp only [opensBefore, List.range_succ_eq_map, List.map_cons, List.sum_cons, List.map_map]
  congr 3
  funext i
  simp only [Function.comp, frameOpens, slotOpen_stepped hpos hmore]

end Stepped

theorem turnFrame_stepped (s : State) (g : Int) {sl : Slot} (d : Nat) (hpos : sl.position.toNat ≤ sl.bufLen.toNat)
    (hmore : ¬ sl.exhausted) :
    turnFrame s g (sl.stepped s.cfg.loopWrapGap) (d + frameOpens s.cfg.loopWrapGap sl 0) =
      fun i => turnFrame s g sl d (i + 1) := by
  funext i f
  simp only [turnFrame, share, drawOf, framePlayed_stepped _ i hpos hmore, slotOpen_stepped hpos hmore,
    opensBefore_stepped hpos hmore, Nat.add_assoc]
  rfl

/-! ### The turn of a slot -/

theorem drawOf_zero (gap : Bool) (sl : Slot) (d : Nat) :
    drawOf gap sl d 0 .left = d ∧ drawOf gap sl d 0 .right = d + (slotOpen gap sl 0 .left).toNat := by
  simp [drawOf, opensBefore]

/-- The frame at the cursor played: what the slot adds to its first output frame. -/
theorem playFrame_eq (s : State) (g : Int) {sl : Slot} {p : Word} (d : Nat) (f : AccFrame)
    (h : framePlayed s.cfg.loopWrapGap sl 0 = some p.toNat) :
    playFrame s g { sl with position := p } d f =
      (turnFrame s g sl d 0 f, { sl with position := p + 1 }, d + frameOpens s.cfg.loopWrapGap sl 0) := by
  have hleft : fetchSample s { sl with position := p } (frameAddr sl.bufBase p.toNat) d =
      (sourceSample s sl .left p.toNat d, d + (sampleWritten sl .left p.toNat).toNat) :=
    fetchSample_source s { sl with position := p } .left p.toNat d
  have hright (d' : Nat) : fetchSample s { sl with position := p } (wrapAddr (frameAddr sl.bufBase p.toNat + 2)) d' =
      (sourceSample s sl .right p.toNat d', d' + (sampleWritten sl .right p.toNat).toNat) := by
    rw [frameAddr, wrapAddr_wrapAddr_add]
    exact fetchSample_source s { sl with position := p } .right p.toNat d'
  obtain ⟨hl, hr⟩ := drawOf_zero s.cfg.loopWrapGap sl d
  simp only [playFrame, hleft, hright, accumulate, sat16_eq_saturate, scale_eq_scaled, turnFrame, share, frameOpens,
    hl, hr, slotOpen, h, Option.elim, Option.any, ← Nat.add_assoc]
  rfl

/-- One output frame of a turn, and the rest of it. -/
theorem frameLoop_cons (s : State) (g : Int) {sl : Slot} (d : Nat) (f : AccFrame) (fs : List AccFrame)
    (hproc : Processed sl) (hlen : sl.bufLen.toNat ≠ 0) (hpos : sl.position.toNat ≤ sl.bufLen.toNat)
    (hmore : ¬ sl.exhausted) :
    frameLoop s g sl d (f :: fs) =
      { frameLoop s g (sl.stepped s.cfg.loopWrapGap) (d + frameOpens s.cfg.loopWrapGap sl 0) fs with
        acc := turnFrame s g sl d 0 f ::
          (frameLoop s g (sl.stepped s.cfg.loopWrapGap) (d + frameOpens s.cfg.loopWrapGap sl 0) fs).acc } := by
  have hplayed := framePlayed_zero s.cfg.loopWrapGap hproc hlen hpos hmore
  simp only [frameLoop]
  by_cases hend : sl.position.toNat = sl.bufLen.toNat
  · have hloop : sl.looping = true := by simpa using fun h => hmore ⟨hend.ge, h⟩
    rw [if_pos hend.ge, if_pos hloop]
    rw [if_pos hend] at hplayed
    cases hgap : s.cfg.loopWrapGap
    · have hfirst : framePlayed s.cfg.loopWrapGap sl 0 = some (0 : Word).toNat := hplayed.trans (by simp [hgap])
      rw [playFrame_eq s g d f hfirst]
      simp [Slot.stepped, hend, hgap]
    · have hnone : framePlayed s.cfg.loopWrapGap sl 0 = none := hplayed.trans (by simp [hgap])
      rw [turnFrame_of_none hnone, ← hgap, frameOpens_of_none hnone]
      simp [Slot.stepped, hend, hgap]
  · have hinside : ¬ sl.bufLen.toNat ≤ sl.position.toNat := by omega
    rw [if_neg hend] at hplayed
    rw [if_neg hinside]
    have hplay := playFrame_eq s g (p := sl.position) d f hplayed
    simp [hplay, Slot.stepped, hinside]

/-- The turn of a slot with a buffer: what it adds to each output frame, its cursor, and its draws. -/
theorem frameLoop_eq (s : State) (g : Int) {sl : Slot} (d : Nat) (fs : List AccFrame) (hproc : Processed sl)
    (hlen : sl.bufLen.toNat ≠ 0) (hpos : sl.position.toNat ≤ sl.bufLen.toNat) :
    frameLoop s g sl d fs =
      ⟨fs.mapIdx (turnFrame s g sl d), cursorLoop s.cfg.loopWrapGap sl fs.length,
        d + opensBefore s.cfg.loopWrapGap sl fs.length⟩ := by
  induction fs generalizing sl d with
  | nil => simp [frameLoop, cursorLoop, opensBefore]
  | cons f fs ih =>
    by_cases hexh : sl.exhausted
    · have hnone := framePlayed_of_exhausted s.cfg.loopWrapGap hexh
      have hcursor : cursorLoop s.cfg.loopWrapGap sl (f :: fs).length = { sl with state := .idle } := by
        rw [List.length_cons, cursorLoop_succ, if_pos hexh]
      rw [mapIdx_turnFrame_of_none hnone, opensBefore_of_none hnone, hcursor, frameLoop, if_pos hexh.1,
        if_neg (by simp [hexh.2])]
      rfl
    · rw [frameLoop_cons s g d f fs hproc hlen hpos hexh,
        ih (sl := sl.stepped s.cfg.loopWrapGap) _ hproc hlen (stepped_position_le _ hlen hpos), List.length_cons,
        cursorLoop_succ, if_neg hexh, opensBefore_stepped hpos hexh, List.mapIdx_cons, Nat.add_assoc,
        turnFrame_stepped s g d hpos hexh]

end Sys2Proof.Machine
end

section
/-! SUPPORT. The family of 42_mixing_pass.md: the output samples of a pass (R184, R185, R187, R189), and the
independence of the lanes (R194). -/

namespace Sys2Proof.Machine

open Sys2Proof.Statements

/-! ### The output region read back (R189) -/

/-- The sample of an accumulator frame in a lane. -/
def laneOf : Lane → AccFrame → Int
  | .left, f => f.1
  | .right, f => f.2

/-- A sample of 16 bits (R62). -/
abbrev IsSample (x : Int) : Prop := -32768 ≤ x ∧ x ≤ 32767

theorem sampleAt_congr (cfg : Config) {m m' : Memory} (a : Nat)
    (h : ∀ j < 2, m.read (wrapAddr (a + j)) = m'.read (wrapAddr (a + j))) : sampleAt cfg m a = sampleAt cfg m' a := by
  rw [sampleAt_eq, sampleAt_eq, memRead_congr _ _ _ h]

theorem sampleAt_memWrite_sample (cfg : Config) {m : Memory} (a : Nat) {x : Int} (hm : m.wf = true) (hx : IsSample x) :
    sampleAt cfg (memWrite cfg.sampleEndian m a 2 (BitVec.ofInt 16 x).toNat) a = x := by
  obtain ⟨hlo, hhi⟩ := hx
  rw [sampleAt_eq, memRead_memWrite_two _ _ _ hm, Nat.mod_eq_of_lt (BitVec.isLt _), BitVec.ofNat_toNat,
    BitVec.setWidth_eq, BitVec.toInt_ofInt, Int.bmod]
  omega

/-- A sample is kept by a write of bytes further on, where the addresses do not come round. -/
theorem sampleAt_writeFrames_after (cfg : Config) {m : Memory} (a o : Nat) (fs : List AccFrame) (hafter : a + 2 ≤ o)
    (hfit : o + 4 * fs.length ≤ a + 2 ^ 32) :
    sampleAt cfg (writeFrames cfg.sampleEndian m o fs) a = sampleAt cfg m a := by
  refine sampleAt_congr cfg a fun k hk => read_writeFrames_other _ _ _ _ fun j hj => ?_
  simp only [wrapAddr, addrSpace]
  omega

/-- The lanes of the first frame written, before any other frame is. -/
theorem sampleAt_writeFrame (cfg : Config) {m : Memory} (o : Nat) (f : AccFrame) (lane : Lane) (hm : m.wf = true)
    (hf : ∀ lane, IsSample (laneOf lane f)) :
    sampleAt cfg (writeFrames cfg.sampleEndian m o [f]) (o + lane.offset) = laneOf lane f := by
  have hm1 := Memory.wf_memWrite cfg.sampleEndian o 2 (BitVec.ofInt 16 f.1).toNat hm
  cases lane with
  | left =>
    rw [← sampleAt_memWrite_sample cfg (o + Lane.left.offset) hm (hf .left)]
    refine sampleAt_congr cfg _ fun k hk => read_memWrite_other _ _ _ _ _ fun j hj => ?_
    simp only [wrapAddr, addrSpace, Lane.offset]
    omega
  | right => exact sampleAt_memWrite_sample cfg (o + 2) hm1 (hf .right)

/-- Every output sample is read back from a region that does not come round. -/
theorem sampleAt_writeFrames (cfg : Config) {m : Memory} (o : Nat) {fs : List AccFrame} (lane : Lane)
    (hm : m.wf = true) (hfit : 4 * fs.length ≤ 2 ^ 32) (hfs : ∀ f ∈ fs, ∀ lane, IsSample (laneOf lane f)) {i : Nat}
    (hi : i < fs.length) :
    sampleAt cfg (writeFrames cfg.sampleEndian m o fs) (o + 4 * i + lane.offset) = laneOf lane fs[i] := by
  induction fs generalizing m o i with
  | nil => exact absurd hi (Nat.not_lt_zero i)
  | cons f fs ih =>
    rw [List.length_cons] at hfit hi
    have hrest : writeFrames cfg.sampleEndian m o (f :: fs) =
      writeFrames cfg.sampleEndian (writeFrames cfg.sampleEndian m o [f]) (o + 4) fs := rfl
    rw [hrest]
    cases i with
    | zero =>
      have hoffset : lane.offset ≤ 2 := by cases lane <;> decide
      rw [sampleAt_writeFrames_after cfg _ _ _ (by omega) (by omega)]
      exact sampleAt_writeFrame cfg o f lane hm (hfs f List.mem_cons_self)
    | succ i =>
      rw [show o + 4 * (i + 1) = o + 4 + 4 * i by omega]
      exact ih (o + 4) (wf_writeFrames _ o [f] hm) (by omega) (fun g hg => hfs g (List.mem_cons_of_mem f hg)) _

/-! ### The terms of the statements, slot by slot -/

/-- The sample of frame `q` that slot `c` plays into output frame `i`, an open one its draw. -/
def drawnSample (s : State) (i : Nat) (lane : Lane) (c : Fin 8) (q : Nat) : Int :=
  if openSample s c i lane then ((Config.freeWord (drawNumber s c i lane)).setWidth 16).toInt
  else sampleAt s.cfg s.mem (sourceAddr (s.slot c) q lane)

/-- Output frame `i` after the turns of the slots of the list. -/
def sumsAfter (s : State) (cs : List (Fin 8)) (i : Nat) : AccFrame :=
  (cs.foldl (addSlot s (drawnSample s i .left) i .left) 0, cs.foldl (addSlot s (drawnSample s i .right) i .right) 0)

theorem laneOf_sumsAfter (s : State) (cs : List (Fin 8)) (i : Nat) (lane : Lane) :
    laneOf lane (sumsAfter s cs i) = cs.foldl (addSlot s (drawnSample s i lane) i lane) 0 := by
  cases lane <;> rfl

theorem mixedWithDraws_eq (s : State) (i : Nat) (lane : Lane) :
    mixedWithDraws s i lane = laneOf lane (sumsAfter s allSlots i) := (laneOf_sumsAfter ..).symm

theorem any_or_eq {α : Type} (l : List α) (p q : α → Bool) :
    (l.any fun a => p a || q a) = (l.any p || l.any q) := by
  rw [Bool.eq_iff_iff]
  simp [and_or_left, exists_or]

theorem openSample_eq (s : State) (c : Fin 8) (i : Nat) (lane : Lane) :
    openSample s c i lane = slotOpen s.cfg.loopWrapGap (s.slot c) i lane := by
  unfold openSample slotOpen
  cases framePlayed s.cfg.loopWrapGap (s.slot c) i with
  | none => rfl
  | some q => exact any_or_eq ..

theorem openBefore_eq (s : State) (c : Fin 8) (i : Nat) :
    openBefore s c i = opensBefore s.cfg.loopWrapGap (s.slot c) i := by
  simp only [openBefore, opensBefore, openSample_eq]
  rfl

/-- The slots before `c`, where the ascending order is cut at `c`. -/
theorem filter_lt_of_split {cs rest : List (Fin 8)} {c : Fin 8} (h : allSlots = cs ++ c :: rest) :
    allSlots.filter (· < c) = cs := by
  have hsorted : allSlots.Pairwise (· < ·) := by decide
  rw [h] at hsorted ⊢
  obtain ⟨-, hcons, hbefore⟩ := List.pairwise_append.mp hsorted
  have hafter : ∀ d ∈ rest, c < d := fun d => List.rel_of_pairwise_cons hcons
  have hkeep : cs.filter (· < c) = cs := List.filter_eq_self.mpr fun d hd => by
    simpa using hbefore d hd c List.mem_cons_self
  have hdrop : (c :: rest).filter (· < c) = [] := List.filter_eq_nil_iff.mpr fun d hd => by
    rcases List.mem_cons.mp hd with rfl | hd
    · simp
    · simpa using (hafter d hd).le
  rw [List.filter_append, hkeep, hdrop, List.append_nil]

theorem drawNumber_eq (s : State) {cs rest : List (Fin 8)} {c : Fin 8} (h : allSlots = cs ++ c :: rest) (i : Nat)
    (lane : Lane) :
    drawNumber s c i lane = drawOf s.cfg.loopWrapGap (s.slot c) (s.draws + openInPass s cs) i lane := by
  have hbefore : ([0, 1, 2, 3, 4, 5, 6, 7] : List (Fin 8)).filter (· < c) = cs := filter_lt_of_split h
  unfold drawNumber
  rw [hbefore, openBefore_eq]
  cases lane
  · rfl
  · rw [drawOf, ← openSample_eq]

/-- A slot's share of an output sample, in the words of the statements and of the turn. -/
theorem addSlot_eq_share {s : State} (hmaster : s.masterVol.toNat ≤ unity) (c : Fin 8) (i : Nat) (lane : Lane)
    (acc : Int) :
    addSlot s (drawnSample s i lane) i lane acc c =
      share s (s.slot c).gain (s.slot c) lane i (drawNumber s c i lane) acc := by
  have hvol : s.masterVol.toInt = s.masterVol.toNat := by
    rw [BitVec.toInt_eq_toNat_cond, if_pos (by unfold unity at hmaster; omega)]
  have hopen := openSample_eq s c i lane
  unfold addSlot share
  cases hq : framePlayed s.cfg.loopWrapGap (s.slot c) i with
  | none => simp [hq]
  | some q =>
    simp only [slotOpen, hq, Option.any] at hopen
    simp only [hq, Option.elim, drawnSample, hopen, sourceSample, hvol]
    rfl

/-! ### The pass -/

/-- A turn in a pass: what it adds, its slot, and its draws; a slot that plays nothing has its turn too. -/
theorem mixSlot_eq (p : State × List AccFrame) (c : Fin 8)
    (hpos : (p.1.slot c).position.toNat ≤ (p.1.slot c).bufLen.toNat) :
    mixSlot p c =
      ({ p.1.setSlot c (mixedSlot p.1.cfg.loopWrapGap p.2.length (p.1.slot c)) with
          draws := p.1.draws + opensBefore p.1.cfg.loopWrapGap (p.1.slot c) p.2.length },
        p.2.mapIdx (turnFrame p.1 (p.1.slot c).gain (p.1.slot c) p.1.draws)) := by
  unfold mixSlot mixedSlot
  by_cases hproc : Processed (p.1.slot c)
  · have hact : (p.1.slot c).active = true := Slot.active_iff.mpr hproc
    by_cases hlen : (p.1.slot c).bufLen.toNat = 0
    · have hnone : ∀ i, framePlayed p.1.cfg.loopWrapGap (p.1.slot c) i = none := fun i => by simp [framePlayed, hlen]
      rw [mapIdx_turnFrame_of_none hnone, opensBefore_of_none hnone]
      simp [hact, hlen]
      rfl
    · simp only [hact, hlen, frameLoop_eq _ _ _ _ hproc hlen hpos]
      rfl
  · have hact : (p.1.slot c).active = false := by simpa using fun h => hproc (Slot.active_iff.mp h)
    have hnone : ∀ i, framePlayed p.1.cfg.loopWrapGap (p.1.slot c) i = none := fun i => by simp [framePlayed, hproc]
    rw [mapIdx_turnFrame_of_none hnone, opensBefore_of_none hnone]
    simp [hact, State.setSlot_self]

/-- A pass that runs in `s`, after the turns of the slots of the list. -/
structure PassAfter (s : State) (cs : List (Fin 8)) (p : State × List AccFrame) : Prop where
  machine : ∃ v, p.1 = { s with slots := v, draws := s.draws + openInPass s cs }
  kept : ∀ c, c ∉ cs → p.1.slot c = s.slot c
  sums : p.2 = (List.range s.sampleCount.toNat).map (sumsAfter s cs)

theorem PassAfter.start (s : State) : PassAfter s [] (s, List.replicate s.sampleCount.toNat (0, 0)) where
  machine := ⟨s.slots, rfl⟩
  kept _ _ := rfl
  sums := by
    have hzero : sumsAfter s [] = fun _ => (0, 0) := rfl
    rw [hzero, List.map_const', List.length_range]

theorem openInPass_append (s : State) (cs : List (Fin 8)) (c : Fin 8) :
    openInPass s (cs ++ [c]) =
      openInPass s cs + opensBefore s.cfg.loopWrapGap (s.slot c) s.sampleCount.toNat := by
  simp [openInPass, openBefore_eq]

theorem turnFrame_sumsAfter {s : State} (hmaster : s.masterVol.toNat ≤ unity) {cs rest : List (Fin 8)} {c : Fin 8}
    (hsplit : allSlots = cs ++ c :: rest) (i : Nat) :
    turnFrame s (s.slot c).gain (s.slot c) (s.draws + openInPass s cs) i (sumsAfter s cs i) =
      sumsAfter s (cs ++ [c]) i := by
  simp only [sumsAfter, List.foldl_append, List.foldl_cons, List.foldl_nil, addSlot_eq_share hmaster,
    drawNumber_eq s hsplit]
  rfl

theorem PassAfter.turn {s : State} {cs rest : List (Fin 8)} {c : Fin 8} {p : State × List AccFrame}
    (hmaster : s.masterVol.toNat ≤ unity) (hpos : (s.slot c).position.toNat ≤ (s.slot c).bufLen.toNat)
    (hsplit : allSlots = cs ++ c :: rest) (h : PassAfter s cs p) : PassAfter s (cs ++ [c]) (mixSlot p c) := by
  obtain ⟨u, fs⟩ := p
  obtain ⟨⟨v, hu⟩, hkept, hfs⟩ := h
  dsimp only at hu hkept hfs
  have hnodup : allSlots.Nodup := by decide
  have hfresh : c ∉ cs := by
    rw [hsplit] at hnodup
    exact fun hc => List.disjoint_of_nodup_append hnodup hc List.mem_cons_self
  have hslot := hkept c hfresh
  have hlen : fs.length = s.sampleCount.toNat := by simp [hfs]
  rw [mixSlot_eq _ _ (hslot.symm ▸ hpos)]
  refine ⟨⟨v.set c (mixedSlot u.cfg.loopWrapGap fs.length (u.slot c)), ?_⟩, fun d hd => ?_, ?_⟩
  · simp only [hslot, hlen, openInPass_append, ← Nat.add_assoc]
    subst hu
    rfl
  · rw [List.mem_append, not_or, List.mem_singleton] at hd
    exact (State.slot_setSlot_other _ _ (Ne.symm hd.2)).trans (hkept d hd.1)
  · have hturn : turnFrame u = turnFrame s := by subst hu; rfl
    have hdraws : u.draws = s.draws + openInPass s cs := by rw [hu]
    refine List.ext_getElem (by simp [hlen]) fun i _ _ => ?_
    simp [hfs, hslot, hturn, hdraws, turnFrame_sumsAfter hmaster hsplit]

theorem foldl_mixSlot_after {s : State} (hmaster : s.masterVol.toNat ≤ unity)
    (hpos : ∀ c, (s.slot c).position.toNat ≤ (s.slot c).bufLen.toNat) {cs rest : List (Fin 8)}
    (h : allSlots = cs ++ rest) :
    PassAfter s cs (cs.foldl mixSlot (s, List.replicate s.sampleCount.toNat (0, 0))) := by
  induction cs using List.reverseRecOn generalizing rest with
  | nil => exact .start s
  | append_singleton cs c ih =>
    have hsplit : allSlots = cs ++ c :: rest := h.trans (List.append_assoc ..)
    rw [List.foldl_append]
    exact (ih hsplit).turn hmaster (hpos c) hsplit

theorem mixPass_after {s : State} (h : s.Inv) : PassAfter s allSlots (mixPass s) := by
  have hpos := h.position_le
  obtain ⟨-, hmaster, -⟩ := h
  exact foldl_mixSlot_after hmaster hpos (List.append_nil allSlots).symm

theorem isSample_addSlot (s : State) (sample : Fin 8 → Nat → Int) (i : Nat) (lane : Lane) (c : Fin 8) {acc : Int}
    (h : IsSample acc) : IsSample (addSlot s sample i lane acc c) := by
  unfold addSlot
  dsimp only
  split
  · exact h
  · rw [← sat16_eq_saturate]
    exact ⟨sat16_ge _, sat16_le _⟩

/-- Sums of saturating additions are samples. -/
theorem isSample_sumsAfter (s : State) (cs : List (Fin 8)) (i : Nat) (lane : Lane) :
    IsSample (laneOf lane (sumsAfter s cs i)) := by
  rw [laneOf_sumsAfter]
  induction cs using List.reverseRecOn with
  | nil => exact (by decide : IsSample 0)
  | append_singleton cs c ih =>
    rw [List.foldl_append]
    exact isSample_addSlot s _ i lane c ih

/-! ### The samples of the output region -/

/-- After MIX every output sample is read from its place in the output region (R189). -/
theorem sampleAt_after_mix {s t : State} {ch : BitVec 8} (hinv : s.Inv) (hcount : s.sampleCount.toNat ≤ 2 ^ 30)
    (e : exec (.mix ch) s = .next t) {i : Nat} (lane : Lane) (hi : i < s.sampleCount.toNat) :
    sampleAt s.cfg t.mem (outputBase s + 4 * i + lane.offset) = mixedWithDraws s i lane := by
  obtain ⟨-, -, hsums⟩ := mixPass_after hinv
  obtain ⟨-, -, -, -, -, -, -, -, hmem⟩ := hinv
  have hlen := mixPass_length s
  have hsamples : ∀ f ∈ (mixPass s).2, ∀ lane, IsSample (laneOf lane f) := by
    intro f hf lane
    rw [hsums] at hf
    obtain ⟨k, -, rfl⟩ := List.mem_map.mp hf
    exact isSample_sumsAfter ..
  rw [(MixEffect.of_exec e).mem, sampleAt_writeFrames s.cfg _ lane hmem (by omega) hsamples (hlen.symm ▸ hi),
    mixedWithDraws_eq]
  simp [hsums]

/-- Two samplings that agree on the frames played make the same output sample. -/
theorem mixedFrom_congr {s s' : State} {sample sample' : Fin 8 → Nat → Int} {i : Nat} {lane : Lane}
    (h : ∀ c acc, addSlot s sample i lane acc c = addSlot s' sample' i lane acc c) :
    mixedFrom s sample i lane = mixedFrom s' sample' i lane := by
  have hadd : addSlot s sample i lane = addSlot s' sample' i lane := funext₂ fun acc c => h c acc
  rw [mixedFrom, mixedFrom, hadd]

theorem addSlot_of_none {s : State} {i : Nat} {c : Fin 8} (h : framePlayed s.cfg.loopWrapGap (s.slot c) i = none)
    (sample : Fin 8 → Nat → Int) (lane : Lane) (acc : Int) : addSlot s sample i lane acc c = acc := by
  simp [addSlot, h]

theorem addSlot_of_some {s : State} {i q : Nat} {c : Fin 8} (h : framePlayed s.cfg.loopWrapGap (s.slot c) i = some q)
    (sample : Fin 8 → Nat → Int) (lane : Lane) (acc : Int) :
    addSlot s sample i lane acc c = saturate (acc + scaled s.cfg.divRounding (sample c q) (lane.volume (s.slot c))
      ((s.slot c).fadeLevel.toNat / 65536 : Nat) s.masterVol.toNat) := by
  simp [addSlot, h]

theorem openSample_of_stable {s : State} {i q : Nat} {c : Fin 8} {lane : Lane} (hstable : SourceStable s i lane)
    (h : framePlayed s.cfg.loopWrapGap (s.slot c) i = some q) : openSample s c i lane = false := by
  simp only [openSample, h, List.any_eq_false]
  intro r hr
  have h0 := hstable c q h r hr 0 (by decide)
  have h1 := hstable c q h r hr 1 (by decide)
  rw [Nat.add_zero] at h0
  rw [h0, h1]
  decide

/-- With no open sample, every sample is the one in memory. -/
theorem mixedWithDraws_of_stable {s : State} {i : Nat} {lane : Lane} (hstable : SourceStable s i lane) :
    mixedWithDraws s i lane = mixedSample s i lane := by
  refine mixedFrom_congr fun c acc => ?_
  cases hq : framePlayed s.cfg.loopWrapGap (s.slot c) i with
  | none => rw [addSlot_of_none hq, addSlot_of_none hq]
  | some q =>
    rw [addSlot_of_some hq, addSlot_of_some hq, openSample_of_stable hstable hq]
    rfl

theorem sourceStable_of_no_hostWrites {s : State} (h : ∀ c, (s.slot c).hostWrites = []) (i : Nat) (lane : Lane) :
    SourceStable s i lane := by
  intro c q _ r hr
  rw [h c] at hr
  cases hr

end Sys2Proof.Machine

namespace Sys2Proof.Proofs

open Sys2Proof Sys2Proof.Machine Sys2Proof.Statements

/-- Settles O42: the accumulators of a pass are the sums of the shares, slot after slot, and the output write is read
back. -/
theorem mixWritesTheSaturatingSum : Obligations.MixWritesTheSaturatingSum := by
  intro s t ch hinv hcount e
  refine ⟨fun i lane hi hstable => ?_, fun i lane hi => sampleAt_after_mix hinv hcount e lane hi, ?_⟩
  · rw [sampleAt_after_mix hinv hcount e lane hi, mixedWithDraws_of_stable hstable]
  · obtain ⟨⟨v, hmachine⟩, -, -⟩ := mixPass_after hinv
    rw [(MixEffect.of_exec e).draws, hmachine]
    rfl

/-- Settles O47: either machine writes the sums of the samples it finds, in which nothing of the other lane stands. -/
theorem lanesAreIndependent : Obligations.LanesAreIndependent := by
  intro s t s' t' ch lane hinv hinv' hcount hcfg harg hn hmaster hsame e e' i hi
  have hclean : ∀ c, (s.slot c).hostWrites = [] := fun c => (hsame c).1
  have hclean' : ∀ c, (s'.slot c).hostWrites = [] := by
    intro c
    obtain ⟨-, hslot, -⟩ := hsame c
    rw [hslot]
    exact hclean c
  have hbase : outputBase s' = outputBase s := by rw [outputBase, outputBase, harg]
  have hwritten := sampleAt_after_mix hinv hcount e lane hi
  have hwritten' := sampleAt_after_mix hinv' (hn ▸ hcount) e' lane (hn ▸ hi)
  rw [hcfg, hbase] at hwritten'
  rw [hwritten, hwritten', mixedWithDraws_of_stable (sourceStable_of_no_hostWrites hclean i lane),
    mixedWithDraws_of_stable (sourceStable_of_no_hostWrites hclean' i lane)]
  refine mixedFrom_congr fun c acc => ?_
  obtain ⟨-, hslot, hsource⟩ := hsame c
  have hplayed : framePlayed s'.cfg.loopWrapGap (s'.slot c) i = framePlayed s.cfg.loopWrapGap (s.slot c) i := by
    rw [hslot, hcfg]
    rfl
  cases hq : framePlayed s.cfg.loopWrapGap (s.slot c) i with
  | none => rw [addSlot_of_none hq, addSlot_of_none (hplayed.trans hq)]
  | some q =>
    have hvolume : lane.volume (s'.slot c) = lane.volume (s.slot c) := by
      rw [hslot]
      cases lane <;> rfl
    have hlevel : (s'.slot c).fadeLevel = (s.slot c).fadeLevel := by rw [hslot]
    have haddr : sourceAddr (s'.slot c) q lane = sourceAddr (s.slot c) q lane := by
      rw [hslot]
      rfl
    rw [addSlot_of_some hq, addSlot_of_some (hplayed.trans hq), hvolume, hlevel, haddr, hcfg, hmaster,
      hsource q (lt_bufLen_of_framePlayed hq)]

end Sys2Proof.Proofs
end

section
/-! SUPPORT. The family of 43_output_port.md: the output-port commands up to their request, and what the Port's answer
ends them with (R212 to R216, R218). -/

namespace Sys2Proof.Machine

open Sys2Proof.Statements

/-! ### Releases and answers -/

/-- All the release after an exchange does: the Port receives the handle that was taken out, if there was one. -/
theorem State.releaseOld_eq (s : State) (old : Option Reservation) :
    s.releaseOld old = { s with portLog := s.portLog ++ old.toList.map (fun r => .release r.handle) } := by
  cases old with
  | none => simp [State.releaseOld]
  | some r => rfl

theorem step_portAnswer {s : State} {id : Nat} {ans : PortAnswer} {rest : List Event}
    (hag : s.agenda = .portAnswer id ans :: rest) :
    step s = .next (State.portAnswer { s with agenda := rest } id ans) := step_event hag

/-- An `Err` ends the command that waits, whichever it is (R212, R216). -/
theorem State.portAnswer_err {s : State} {id : Nat} {req : PortReq} (hwait : s.outPhase = .awaitPort id req)
    (e : Word) : s.portAnswer id (.err e) = s.audioError e := by
  cases req <;> simp [State.portAnswer, hwait, finishReserve, finishOutput]

theorem State.portAnswer_reserve_ok {s : State} {id : Nat} {f : Word} {fmt : PortFormat}
    (hwait : s.outPhase = .awaitPort id (.reserve f fmt)) (h : Word) :
    s.portAnswer id (.ok h) = ({ s with hw := some ⟨h, f⟩ }.releaseOld s.hw).completeOut .ok := by
  simp [State.portAnswer, hwait, finishReserve]

theorem State.portAnswer_output_ok {s : State} {id n : Nat} {h b l r : Word}
    (hwait : s.outPhase = .awaitPort id (.output h b n l r)) (v : Word) :
    s.portAnswer id (.ok v) = s.completeOut .ok := by
  simp [State.portAnswer, hwait, finishOutput]

/-- An answer that no waiting request has the number of is ignored (R262, log 11). -/
theorem State.portAnswer_other {s : State} {id : Nat} (h : ∀ req, s.outPhase ≠ .awaitPort id req)
    (ans : PortAnswer) : s.portAnswer id ans = s := by
  unfold State.portAnswer
  split
  · next k req hwait =>
    refine if_neg fun hk => ?_
    subst hk
    exact h req hwait
  · rfl

/-- The step of an `Err` to the request that waits. -/
theorem step_portAnswer_err {s : State} {id : Nat} {req : PortReq} {e : Word} {rest : List Event}
    (hwait : s.outPhase = .awaitPort id req) (hag : s.agenda = .portAnswer id (.err e) :: rest) :
    step s = .next { s with agenda := rest, outPhase := .idle, outCode := .audioError, outErrcode := e } :=
  (step_portAnswer hag).trans (congrArg _ (State.portAnswer_err (s := { s with agenda := rest }) hwait e))

/-! ### RELEASE and OUTPUT up to their end or their request -/

theorem exec_release (s : State) :
    exec .release s = .next (({ s with hw := none }.releaseOld s.hw).completeOut .ok) := rfl

theorem exec_release_none {s : State} (h : s.hw = none) :
    exec .release s = .next { s with outPhase := .idle, outCode := .ok } := by
  rw [exec_release, h]
  rfl

theorem exec_output_short {s : State} (hshort : s.outLen < 2 * s.sampleCount.toNat) :
    exec .output s = .next (s.completeOut .invalidArgument) := if_pos hshort

theorem exec_output_unreserved {s : State} (hlen : 2 * s.sampleCount.toNat ≤ s.outLen) (h : s.hw = none) :
    exec .output s = .next (s.completeOut .noHwChannel) := by
  simp only [exec, execOutput, if_neg (Nat.not_lt.mpr hlen), h, outFail]

theorem exec_output_reserved {s : State} {r : Reservation} (hlen : 2 * s.sampleCount.toNat ≤ s.outLen)
    (h : s.hw = some r) :
    exec .output s = .next (s.portCall (.output r.handle s.outBase (2 * r.frames.toNat)
      (BitVec.ofNat 32 unity) (BitVec.ofNat 32 unity))) := by
  simp only [exec, execOutput, if_neg (Nat.not_lt.mpr hlen), h]

/-- The even base of a buffer as arithmetic (R65, R95). -/
theorem outBase_eq_ofNat (s : State) : s.outBase = BitVec.ofNat 32 (s.outArg0.toNat / 2 * 2) :=
  argBase_eq_ofNat { s with ctrlArg0 := s.outArg0 }

end Sys2Proof.Machine

namespace Sys2Proof.Proofs

open Sys2Proof Sys2Proof.Machine Sys2Proof.Statements

/-- Settles O48: the request is `portCall`'s; the Port's answer ends the command as `portAnswer_reserve_ok` and
`portAnswer_err` say, and the release is `releaseOld`'s. -/
theorem reserveAsksThePort : Obligations.ReserveAsksThePort := by
  refine ⟨fun s => rfl, fun s id f h fmt rest hwait hag => ?_, fun s id f e fmt rest hwait hag => ?_⟩
  · rw [step_portAnswer hag, State.portAnswer_reserve_ok (s := { s with agenda := rest }) hwait, State.releaseOld_eq]
    cases s.hw <;> rfl
  · exact step_portAnswer_err hwait hag

/-- Settles O49: the exchange empties the handle, so that a second RELEASE finds none (`exec_release_none`). -/
theorem releaseIsIdempotent : Obligations.ReleaseIsIdempotent := by
  refine ⟨fun s r hr => ?_, fun s => exec_release_none, fun s t e => ?_⟩
  · rw [exec_release, hr]
    rfl
  · rw [exec_release] at e
    cases e
    exact exec_release_none (by simp)

/-- Settles O50: the two checks in their order, then the request; either answer ends the command. -/
theorem outputChecksThenAsksThePort : Obligations.OutputChecksThenAsksThePort := by
  refine ⟨fun s => exec_output_short, fun s => exec_output_unreserved, fun s r req hlen hr hreq => ?_,
    fun s id h b l r n rest hwait => ⟨fun v hag => ?_, fun e hag => step_portAnswer_err hwait hag⟩⟩
  · rw [exec_output_reserved hlen hr, outBase_eq_ofNat, hreq]
    rfl
  · rw [step_portAnswer hag, State.portAnswer_output_ok (s := { s with agenda := rest }) hwait]
    rfl

end Sys2Proof.Proofs
end

section
/-! SUPPORT. The family of 43_output_port.md: what ends a wait for the Port (R218, R262, R276), and which releases the
Port is sent (R213, R219). -/

namespace Sys2Proof.Machine

open Sys2Proof.Statements

/-! ### A port that waits -/

/-- A step from `s` to `t` leaves the phase of the OUT port, its registers but the status flag OVR, the handle, and what
the Port has received. An item that the step does not write has its default proof. -/
structure KeepsOutPort (s t : State) : Prop where
  outPhase : t.outPhase = s.outPhase := by simp
  outCode : t.outCode = s.outCode := by simp
  outErrcode : t.outErrcode = s.outErrcode := by simp
  hw : t.hw = s.hw := by simp
  outArg0 : t.outArg0 = s.outArg0 := by simp
  outArg1 : t.outArg1 = s.outArg1 := by simp
  portLog : t.portLog = s.portLog := by simp

theorem ControlEffect.keepsOutPort {s t : State} {i : Instr} {a : List Event} {d : Nat}
    (e : ControlEffect { s with agenda := a, draws := d } i t) : KeepsOutPort s t := by
  cases e <;> exact {}

/-- No register access writes to a busy OUT port: the accesses that could are dropped. -/
theorem access_keepsOutPort {s t : State} {i : Instr} {a : List Event} (hi : i.format = .mmio)
    (hbusy : s.outPhase ≠ .idle) (e : exec i { s with agenda := a } = .next t) : KeepsOutPort s t := by
  have hdrop : ∀ u, (.next (State.outPortWrite { s with agenda := a } u) : Result) = .next t → KeepsOutPort s t := by
    intro u hu
    rw [outPortWrite_busy (s := { s with agenda := a }) hbusy] at hu
    cases hu
    exact {}
  cases accessEffect_of_exec hi e with
  | outAccepted v | outArg0 v | outArg1 v => exact hdrop _ e
  | answered | ctrlDropped | ctrlAccepted | ctrlArg0 | ctrlArg1 | ctrlArg2 | ctrlStatus | masterVol | lockWritten
  | lockTaken | outDropped | outStatus => exact {}

/-- An answer to another request than the one that waits is ignored. -/
theorem AnswerEffect.keepsOutPort {s t : State} {id k : Nat} {req : PortReq} {ans : PortAnswer} {a : List Event}
    (e : AnswerEffect { s with agenda := a } k ans t) (hwait : s.outPhase = .awaitPort id req) (hother : k ≠ id) :
    KeepsOutPort s t := by
  have hnone : ∀ req', s.outPhase ≠ .awaitPort k req' := by
    intro req' h
    cases hwait.symm.trans h
    exact hother rfl
  cases e with
  | ignored => exact {}
  | failed req' _ h | reserved _ _ _ h | played req' _ h => exact absurd h (hnone _)

/-- A host's read of memory, a Port read and a step of an engine with nothing to do write none of it. -/
theorem KeepsOutPort.of_data (s : State) (a : List Event) (r : Word) (p : Byte) (d : Nat) :
    KeepsOutPort s { s with agenda := a, readData := r, portData := p, draws := d } := {}

theorem KeepsOutPort.hostStore (s : State) (a : List Event) (addr : Word) (width : Width) (v : Word) :
    KeepsOutPort s (State.hostStore { s with agenda := a } addr width v) := by
  unfold State.hostStore
  exact {}

theorem step_keepsOutPort {s t : State} {id : Nat} {req : PortReq} (e : step s = .next t)
    (hwait : s.outPhase = .awaitPort id req) (hreset : ¬ Resets s)
    (hans : ∀ ans, s.agenda.head? ≠ some (.portAnswer id ans)) : KeepsOutPort s t := by
  cases step_effect e with
  | control i a d _ hrun heff => exact heff.keepsOutPort
  | output i a d _ hrun heff =>
    obtain ⟨-, w, hpending, -⟩ := hrun
    cases hwait.symm.trans hpending
  | access i a _ hrun heff =>
    obtain ⟨off, access, rest, hi, hstep⟩ := step_of_accessesRegister hrun
    obtain ⟨-, -, hfmt⟩ := decodeMmio_ok hi
    exact access_keepsOutPort hfmt (by simp [hwait]) (hstep.symm.trans e)
  | answered a k ans _ hev heff => exact heff.keepsOutPort hwait (fun hk => hans ans (hk ▸ hev))
  | stored a addr width v => exact .hostStore ..
  | reset a hev => exact absurd hev hreset
  | waited | loaded | portRead => exact .of_data ..

/-! ### Releases -/

/-- What `Obligations.ReleasesAreOfTheHeldHandle` says of one step from `s` to `t`: what the Port is sent, and that a
handle taken out is released. -/
structure ReleasesHeld (s t : State) : Prop where
  sent : t.portLog = s.portLog ∨
    (∃ req, t.portLog = s.portLog ++ [.request s.reqCount req] ∧
      t.outPhase = .awaitPort s.reqCount req ∧ t.hw = s.hw) ∨
    (∃ r, s.hw = some r ∧ t.portLog = s.portLog ++ [.release r.handle] ∧
      (t.hw = none ∨ ∃ id h f, t.hw = some ⟨h, f⟩ ∧ s.agenda.head? = some (.portAnswer id (.ok h))))
  released : ∀ r, s.hw = some r → t.hw ≠ s.hw → t.portLog = s.portLog ++ [.release r.handle]

/-- Nothing is sent, and the handle stays. -/
theorem ReleasesHeld.of_kept {s t : State} (hlog : t.portLog = s.portLog) (hhw : t.hw = s.hw) : ReleasesHeld s t :=
  ⟨.inl hlog, fun _ _ hne => absurd hhw hne⟩

/-- A request is sent, and the handle stays. -/
theorem ReleasesHeld.of_request {s t : State} {req : PortReq}
    (hlog : t.portLog = s.portLog ++ [.request s.reqCount req]) (hphase : t.outPhase = .awaitPort s.reqCount req)
    (hhw : t.hw = s.hw) : ReleasesHeld s t :=
  ⟨.inr (.inl ⟨req, hlog, hphase, hhw⟩), fun _ _ hne => absurd hhw hne⟩

/-- An exchange (R213): the handle is taken out, whatever the new one is, and released if there was one. -/
theorem ReleasesHeld.of_exchange {s t : State}
    (hlog : t.portLog = s.portLog ++ s.hw.toList.map (fun r => .release r.handle))
    (hnew : t.hw = none ∨ ∃ id h f, t.hw = some ⟨h, f⟩ ∧ s.agenda.head? = some (.portAnswer id (.ok h))) :
    ReleasesHeld s t := by
  cases hold : s.hw with
  | none =>
    rw [hold] at hlog
    exact ⟨.inl (by simpa using hlog), fun r hr => by cases hold.symm.trans hr⟩
  | some old =>
    rw [hold] at hlog
    refine ⟨.inr (.inr ⟨old, hold, hlog, hnew⟩), fun r hr _ => ?_⟩
    cases hold.symm.trans hr
    exact hlog

theorem OutputEffect.releasesHeld {s t : State} {i : Instr} {a : List Event} {d : Nat}
    (e : OutputEffect { s with agenda := a, draws := d } i t) : ReleasesHeld s t := by
  cases e with
  | ended => exact .of_kept rfl rfl
  | requested => exact .of_request rfl rfl rfl
  | released => exact .of_exchange (by simp) (.inl (by simp))

theorem AccessEffect.releasesHeld {s t : State} {i : Instr} {a : List Event}
    (e : AccessEffect { s with agenda := a } i t) : ReleasesHeld s t := by
  cases e <;> exact .of_kept rfl rfl

theorem AnswerEffect.releasesHeld {s t : State} {id : Nat} {ans : PortAnswer} {a : List Event}
    (e : AnswerEffect { s with agenda := a } id ans t) (hev : s.agenda.head? = some (.portAnswer id ans)) :
    ReleasesHeld s t := by
  cases e with
  | ignored | failed | played => exact .of_kept rfl rfl
  | reserved frames format h => exact .of_exchange (by simp) (.inr ⟨id, h, frames, by simp, hev⟩)

theorem KeepsOutPort.releasesHeld {s t : State} (h : KeepsOutPort s t) : ReleasesHeld s t := .of_kept h.portLog h.hw

/-- Reset takes the handle out and releases it (R262). -/
theorem State.applyReset_releasesHeld (s : State) (a : List Event) :
    ReleasesHeld s (State.applyReset { s with agenda := a }) :=
  .of_exchange (by simp [State.applyReset]) (.inl rfl)

end Sys2Proof.Machine

namespace Sys2Proof.Proofs

open Sys2Proof Sys2Proof.Machine Sys2Proof.Statements

/-- Settles O51: by the inversion of a step; the OUT engine has no word to start on, and a write to the port is
dropped. -/
theorem onlyItsAnswerOrResetEndsAWait : Obligations.OnlyItsAnswerOrResetEndsAWait := by
  refine ⟨fun s t id req hwait e hreset hans => ?_, fun s id ans rest hag hnone => ?_⟩
  · have h := step_keepsOutPort e hwait hreset hans
    exact ⟨h.outPhase, h.outCode, h.outErrcode, h.hw, h.outArg0, h.outArg1, h.portLog⟩
  · rw [step_portAnswer hag, State.portAnswer_other (s := { s with agenda := rest }) hnone]

/-- Settles O54: by the inversion of a step; the handle leaves only by an exchange, in RELEASE, in the answer to a
RESERVE and in reset. -/
theorem releasesAreOfTheHeldHandle : Obligations.ReleasesAreOfTheHeldHandle := by
  intro s t e
  have h : ReleasesHeld s t := by
    cases step_effect e with
    | control i a d _ hrun heff => exact heff.keepsOutPort.releasesHeld
    | output i a d _ hrun heff => exact heff.releasesHeld
    | access i a _ hrun heff => exact heff.releasesHeld
    | answered a id ans _ hev heff => exact heff.releasesHeld hev
    | stored a addr width v => exact (KeepsOutPort.hostStore s a addr width v).releasesHeld
    | reset a => exact s.applyReset_releasesHeld a
    | waited | loaded | portRead => exact .of_kept rfl rfl
  exact ⟨h.sent, h.released⟩

end Sys2Proof.Proofs
end

section
/-! SUPPORT. The family of 43_output_port.md: what the Port reads of the buffer it was handed (R68, R78, R210). -/

namespace Sys2Proof.Machine

open Sys2Proof.Statements

/-! ### A Port read -/

theorem step_portRead {s : State} {a : Word} {rest : List Event} (hag : s.agenda = .portRead a :: rest) :
    step s = .next (State.portLoad { s with agenda := rest } a) := step_event hag

/-- A Port read of anything but the buffer of an OUTPUT that waits does nothing (log 12). -/
theorem portLoad_outside {s : State} {a : Word}
    (h : ∀ id h b n l r, s.outPhase = .awaitPort id (.output h b n l r) → OutsideRegion ⟨b, 2 * n⟩ a) :
    s.portLoad a = s := by
  unfold State.portLoad
  split
  · next hwait => exact if_neg fun hin => (contains_iff_not_outside ..).mp hin (h _ _ _ _ _ _ hwait)
  · rfl

theorem anyContains_iff_not_outside (rs : List Region) (a : Word) :
    anyContains rs a.toNat = true ↔ ∃ q ∈ rs, ¬ OutsideRegion q a := by
  simp only [anyContains, List.any_eq_true, contains_iff_not_outside]

theorem anyContains_eq_false {rs : List Region} {a : Word} (h : ∀ q ∈ rs, OutsideRegion q a) :
    anyContains rs a.toNat = false := by
  rw [← Bool.not_eq_true, anyContains_iff_not_outside]
  exact fun ⟨q, hq, hin⟩ => hin (h q hq)

theorem mixPendingAt_eq_false {s : State} {a : Nat}
    (h : ∀ w ch, s.ctrlLatch = some w → decode (.ctrl w) = .ok (.mix ch) → OutsideOutput s a) :
    s.mixPendingAt a = false := by
  rw [← Bool.not_eq_true, mixPendingAt_iff_inPendingMix]
  exact fun ⟨⟨w, ch, hw, hmix⟩, hin⟩ => hin (h w ch hw hmix)

/-! ### The record of writes during an OUTPUT -/

theorem holdsOutput_iff (s : State) : s.outPhase.holdsOutput = true ↔ OutputInProgress s := by
  cases hp : s.outPhase with
  | idle => simp [OutPhase.holdsOutput, OutputInProgress, hp]
  | pending w => simp [OutPhase.holdsOutput, OutputInProgress, hp, decode]
  | awaitPort id req => cases req <;> simp [OutPhase.holdsOutput, OutputInProgress, hp]

theorem hostStore_outTouched {s : State} (h : OutputInProgress s) (a : Word) (width : Width) (v : Word) :
    (s.hostStore a width v).outTouched = ⟨a, width.bytes⟩ :: s.outTouched := by
  simp [State.hostStore, noteOutputWrite_outTouched, (holdsOutput_iff s).mpr h]

theorem mixRegion_eq (s : State) : s.mixRegion = ⟨BitVec.ofNat 32 (outputBase s), 4 * s.sampleCount.toNat⟩ := by
  rw [State.mixRegion, argBase_eq_ofNat, outputBase]

/-- The acceptance of OUTPUT empties the record (R78, R121). -/
theorem exec_wrOutCmd_idle {s : State} (hidle : s.outPhase = .idle) (w : Word) :
    exec (.wrOutCmd w) s = .next { s with outPhase := .pending w, outTouched := [] } :=
  congrArg _ (outPortWrite_idle hidle _)

theorem exec_mix_outTouched {s : State} (h : OutputInProgress s) (ch : BitVec 8) :
    ∃ t, exec (.mix ch) s = .next t ∧
      t.outTouched = ⟨BitVec.ofNat 32 (outputBase s), 4 * s.sampleCount.toNat⟩ :: s.outTouched := by
  obtain ⟨v, d, fs, e, -⟩ := execMix_cases ch s
  refine ⟨_, e, ?_⟩
  simp [noteOutputWrite_outTouched, (holdsOutput_iff s).mpr h, mixRegion_eq]

end Sys2Proof.Machine

namespace Sys2Proof.Proofs

open Sys2Proof Sys2Proof.Machine Sys2Proof.Statements

/-- Settles O60: `portLoad` case by case, in the words of the statement; the record of writes starts empty and takes
every region written while an OUTPUT is in progress (`holdsOutput_iff`). -/
theorem portReadsTheHandedBuffer : Obligations.PortReadsTheHandedBuffer := by
  refine ⟨fun s a rest hag => ?_, fun s hidle => ?_, fun s a v width rest hcfg hout hag hoff => ?_,
    fun s ch hout => exec_mix_outTouched hout ch⟩
  · rw [step_portRead hag]
    refine ⟨?_, fun id h b n l r hwait hin htouched hmix => ?_, fun id h b n l r hwait hin hopen => ?_, fun hout => ?_⟩
    · obtain ⟨v, d, e⟩ := portLoad_cases { s with agenda := rest } a
      exact ⟨v, d, congrArg _ e⟩
    · exact congrArg _ (portLoad_memory (s := { s with agenda := rest }) hwait
        ((contains_iff_not_outside ..).mpr hin) (anyContains_eq_false htouched) (mixPendingAt_eq_false hmix))
    · rw [← anyContains_iff_not_outside, ← mixPendingAt_iff_inPendingMix] at hopen
      exact congrArg _ (portLoad_open (s := { s with agenda := rest }) hwait
        ((contains_iff_not_outside ..).mpr hin) hopen)
    · rw [portLoad_outside (s := { s with agenda := rest }) hout]
  · exact ⟨_, exec_wrOutCmd_idle hidle 3, .inl ⟨3, rfl, by decide⟩, rfl⟩
  · exact ⟨_, step_hostWrite hcfg hag hoff, hostStore_outTouched (s := { s with agenda := rest }) hout a width v⟩

end Sys2Proof.Proofs
end

section
/-! SUPPORT. The family of 60_exceptions.md: how a step ends, and the result a command ends with (R66, R230 to R233,
R247). -/

namespace Sys2Proof.Machine

open Sys2Proof.Statements

/-! ### How a step ends -/

theorem ctrlStep_next (s : State) : ∃ t, ctrlStep s = .next t := by
  cases hw : s.ctrlLatch with
  | none => exact ⟨s, ctrlStep_empty hw⟩
  | some w => exact ctrlStep_full hw ▸ exec_next (decodeCtrl w) s

theorem outStep_next (s : State) : ∃ t, outStep s = .next t := by
  unfold outStep
  split
  · next w _ => exact exec_next (decodeOut w) s
  · exact ⟨s, rfl⟩

theorem idleStep_next (s : State) : ∃ t, idleStep s = .next t := by
  rcases idleStep_cases s with ⟨-, h | h⟩ | ⟨-, -, h⟩ | ⟨-, h⟩ <;> rw [h]
  · exact ctrlStep_next _
  · exact outStep_next _
  · exact ctrlStep_next s
  · exact outStep_next s

/-- A host access ends in a next state, unless it meets the window and the decoder rejects its transfer (R66). -/
theorem hostAccess_next_or_fault (a : BusAccess) (s : State) :
    (∃ t, hostAccess a s = .next t) ∨
      ∃ err, (windowOf s.cfg).overlaps ⟨a.addr, a.width.bytes⟩ = true ∧
        decode (.mmio ((a.addr - s.cfg.mixerBase).setWidth 9) a.width a.access) = .error err ∧
        hostAccess a s = .fault (decodeFault err) := by
  unfold hostAccess
  split
  · next hin =>
    cases hdec : decode (.mmio ((a.addr - s.cfg.mixerBase).setWidth 9) a.width a.access) with
    | ok i => exact .inl (execRaw_ok hdec s ▸ exec_next i s)
    | error err => exact .inr ⟨err, hin, rfl, execRaw_error hdec s⟩
  · exact .inl (by split <;> exact ⟨_, rfl⟩)

/-- A step ends in a next state, unless its event is a host's access that faults. -/
theorem step_next_or_fault (s : State) :
    (∃ t, step s = .next t) ∨
      ∃ a rest err, s.agenda = .host a :: rest ∧ (windowOf s.cfg).overlaps ⟨a.addr, a.width.bytes⟩ = true ∧
        decode (.mmio ((a.addr - s.cfg.mixerBase).setWidth 9) a.width a.access) = .error err ∧
        step s = .fault (decodeFault err) := by
  cases hag : s.agenda with
  | nil => exact .inl (step_idle hag ▸ idleStep_next s)
  | cons ev rest =>
    rw [step_event hag]
    cases ev with
    | host a =>
      rcases hostAccess_next_or_fault a { s with agenda := rest } with hnext | ⟨err, hin, hdec, hfault⟩
      · exact .inl hnext
      · exact .inr ⟨a, rest, err, rfl, hin, hdec, hfault⟩
    | ctrlEngine => exact .inl (ctrlStep_next _)
    | outEngine => exact .inl (outStep_next _)
    | portAnswer | portRead | reset => exact .inl ⟨_, rfl⟩

/-- A transfer that the decoder rejects has the wrong width or a misaligned offset (R66). -/
theorem wrongWidth_or_misaligned_of_decode_error {off : BitVec 9} {width : Width} {a : Access} {err : DecodeError}
    (h : decode (.mmio off width a) = .error err) : width ≠ .word ∨ off.toNat % 4 ≠ 0 := by
  by_contra hnot
  obtain ⟨hwidth, hal⟩ := not_or.mp hnot
  obtain rfl : width = .word := not_not.mp hwidth
  obtain ⟨i, hi⟩ := decode_aligned a (not_not.mp hal)
  cases hi.symm.trans h

/-! ### Commands that fail -/

/-- A control command that ends with an error is one that only ends (R232). -/
theorem ControlEffect.eq_completeCtrl {s t : State} {i : Instr} (e : ControlEffect s i t) (hfail : t.ctrlCode ≠ .ok) :
    t = s.completeCtrl t.ctrlCode := by
  cases e with
  | ended => rfl
  | allocated | freed | submitted | volumeSet | fadedOut | fadedIn | counted | mixed => exact absurd rfl hfail

/-- An output-port command that ends with an error is one that only ends (R232). -/
theorem OutputEffect.eq_completeOut {s t : State} {i : Instr} (e : OutputEffect s i t) (hend : t.outPhase = .idle)
    (hfail : t.outCode ≠ .ok) : t = s.completeOut t.outCode := by
  cases e with
  | ended => rfl
  | requested => nomatch hend
  | released => exact absurd rfl hfail

/-! ### The result of a control command -/

theorem ControlEffect.ctrlOvr {s t : State} {i : Instr} (e : ControlEffect s i t) : t.ctrlOvr = s.ctrlOvr := by
  cases e <;> simp

/-- The result of the handle checks of R150 in the order of R233: a handle that names no slot, then, for the commands
that ask for a used slot, a Free one. -/
def handleResult (s : State) (rejectFree : Bool) (h : Nat) : ResultCode :=
  if 8 ≤ h then .invalidChannel
  else if rejectFree = true ∧ ∃ c : Fin 8, c.val = h ∧ (s.slot c).state = .free then .invalidChannel
  else .ok

/-- The result a control command ends with in a state (R150, R151, R233). -/
def commandResult (s : State) : Instr → ResultCode
  | .illegalCtrl _ => .illegalCommand
  | .alloc _ => if ∀ c : Fin 8, (s.slot c).state ≠ .free then .noFreeChannels else .ok
  | .free h => handleResult s false h.toNat
  | .submit h | .setVolume h | .fadeOut h | .fadeIn h => handleResult s true h.toNat
  | _ => .ok

theorem channelCommand_ctrlCode {rejectFree : Bool} {h : BitVec 8} {s t : State} {f : Slot → Slot}
    (e : channelCommand rejectFree h s f = .next t) : t.ctrlCode = handleResult s rejectFree h.toNat := by
  unfold handleResult
  by_cases hrange : 8 ≤ h.toNat
  · rw [if_pos hrange]
    cases (channelCommand_outOfRange hrange rejectFree s f).symm.trans e
    rfl
  · rw [if_neg hrange]
    split
    · next hfree =>
      obtain ⟨rfl, c, hc, hst⟩ := hfree
      cases (channelCommand_free hc.symm hst f).symm.trans e
      rfl
    · next hused =>
      have hh : h.toNat < 8 := Nat.lt_of_not_le hrange
      cases (channelCommand_slot (c := ⟨h.toNat, hh⟩) rfl (fun hr hst => hused ⟨hr, _, rfl, hst⟩) f).symm.trans e
      rfl

theorem execAlloc_ctrlCode {ch : BitVec 8} {s t : State} (e : execAlloc ch s = .next t) :
    t.ctrlCode = if ∀ c : Fin 8, (s.slot c).state ≠ .free then .noFreeChannels else .ok := by
  unfold execAlloc at e
  split at e
  · next hnone =>
    cases e
    exact (if_pos (firstFree_eq_none.mp hnone)).symm
  · next c hpick =>
    cases e
    exact (if_neg fun hall => hall c (firstFree_eq_some.mp hpick).1).symm

/-- A control command ends with the result of its checks (R233). -/
theorem exec_ctrlCode {i : Instr} {s t : State} (hi : i.format = .ctrl32) (e : exec i s = .next t) :
    t.ctrlCode = commandResult s i := by
  cases i
  case alloc ch => exact execAlloc_ctrlCode (ch := ch) e
  case free | submit | setVolume | fadeOut | fadeIn =>
    simp only [exec_free, exec_submit, exec_setVolume, exec_fadeOut, exec_fadeIn] at e
    exact channelCommand_ctrlCode e
  case mix ch =>
    rw [(MixEffect.of_exec e).frame]
    rfl
  case nop | setSampleCount | illegalCtrl => cases e; rfl
  all_goals nomatch hi

/-- The checks of the command a word decodes to, as arithmetic on the word: OP is taken value by value. -/
theorem commandResult_decodeCtrl (s : State) (w : Word) : commandResult s (decodeCtrl w) = controlResult s w := by
  by_cases hill : w.toNat / 65536 ≠ 0 ∨ 8 < w.toNat % 256
  · rw [decodeCtrl_illegal hill, controlResult, if_pos hill]
    rfl
  · obtain ⟨hrsv, hop⟩ := not_or.mp hill
    rw [decodeCtrl_eq_controlCommand, controlCommand, controlResult, if_neg hill, if_neg hrsv]
    generalize w.toNat % 256 = op at hop
    have hle : op ≤ 8 := Nat.le_of_not_lt hop
    interval_cases op <;> simp [commandResult, handleResult]

end Sys2Proof.Machine

namespace Sys2Proof.Proofs

open Sys2Proof Sys2Proof.Machine Sys2Proof.Statements

/-- Settles O14: every instruction answers a next state (`exec_next`), so a step can stop only where the decoder
rejects a host's access to the window (`step_next_or_fault`). -/
theorem noCommandRaisesAFault : Obligations.NoCommandRaisesAFault := by
  refine ⟨exec_next, fun s f hcfg hstop => ?_, fun s r hstop => ?_⟩
  · rcases step_next_or_fault s with ⟨t, e⟩ | ⟨a, rest, err, hag, hin, hdec, -⟩
    · cases e.symm.trans hstop
    · have hbad := wrongWidth_or_misaligned_of_decode_error hdec
      rw [window_offset_mod_four hcfg] at hbad
      exact ⟨a, rest, hag, (touchesWindow_iff hcfg a).mpr hin, hbad⟩
  · rcases step_next_or_fault s with ⟨t, e⟩ | ⟨_, _, err, -, -, -, e⟩ <;> cases e.symm.trans hstop

/-- Settles O32: by the inversion of either engine's step; the Port's `Err` is `step_portAnswer_err`. -/
theorem failedCommandsHaveNoOtherEffect : Obligations.FailedCommandsHaveNoOtherEffect :=
  ⟨fun _ _ _ hi e hfail => (controlEffect_of_exec hi e).eq_completeCtrl hfail,
    fun _ _ _ hi e hend hfail => (outputEffect_of_exec hi e).eq_completeOut hend hfail,
    fun _ _ _ _ _ hwait hag => step_portAnswer_err hwait hag⟩

/-- Settles O33: the engine runs the word's command, which ends with the result of its checks (`exec_ctrlCode`). -/
theorem controlStepWritesTheFirstMatchingResult : Obligations.ControlStepWritesTheFirstMatchingResult := by
  intro s w rest hw hag
  obtain ⟨t, e⟩ := exec_next (decodeCtrl w) { s with agenda := rest }
  have heff := controlEffect_of_exec (decodeCtrl_format w) e
  refine ⟨t, ?_, heff.ctrlLatch, fun code hcode => ?_, heff.ctrlOvr⟩
  · exact (step_event hag).trans ((ctrlStep_full (s := { s with agenda := rest }) hw).trans e)
  · rw [exec_ctrlCode (decodeCtrl_format w) e, commandResult_decodeCtrl, ← hcode]
    rfl

end Sys2Proof.Proofs
end

section
/-! SUPPORT. The family of 60_exceptions.md: what each engine reads and writes, and that the order of the two does not
show (R211, R236). -/

namespace Sys2Proof.Machine

open Sys2Proof.Statements

/-! ### What each engine writes -/

/-- The state with everything the OUT engine's step writes taken from `u`. -/
def State.withOutPort (s u : State) : State :=
  { s with outPhase := u.outPhase, outCode := u.outCode, hw := u.hw, portLog := u.portLog, reqCount := u.reqCount }

@[simp] theorem State.withOutPort_sampleCount (s u : State) : (s.withOutPort u).sampleCount = s.sampleCount := rfl
@[simp] theorem State.withOutPort_slots (s u : State) : (s.withOutPort u).slots = s.slots := rfl
@[simp] theorem State.withOutPort_draws (s u : State) : (s.withOutPort u).draws = s.draws := rfl
@[simp] theorem State.withOutPort_slot (s u : State) (c : Fin 8) : (s.withOutPort u).slot c = s.slot c := rfl
@[simp] theorem State.withOutPort_firstFree (s u : State) : (s.withOutPort u).firstFree = s.firstFree := rfl

/-- The state with everything the CTRL engine's step writes taken from `t`, but for SAMPLE_COUNT. -/
def State.withControl (s t : State) : State :=
  { s with
    ctrlLatch := t.ctrlLatch, ctrlCode := t.ctrlCode, ctrlResult := t.ctrlResult, slots := t.slots, mem := t.mem,
    outTouched := t.outTouched, draws := t.draws }

theorem ControlEffect.outOvr {s t : State} {i : Instr} (e : ControlEffect s i t) : t.outOvr = s.outOvr := by
  cases e <;> simp

theorem ControlEffect.reqCount {s t : State} {i : Instr} (e : ControlEffect s i t) : t.reqCount = s.reqCount := by
  cases e <;> simp

/-- An output-port command writes the OUT port, the handle and what the Port has received, and nothing else. -/
theorem OutputEffect.frame {s t : State} {i : Instr} (e : OutputEffect s i t) : t = s.withOutPort t := by
  cases e with
  | ended | requested => rfl
  | released =>
    rw [State.releaseOld_eq]
    rfl

/-- A control command other than SET_SAMPLE_COUNT leaves SAMPLE_COUNT and all of the OUT port alone. -/
theorem ControlEffect.frame {s t : State} {i : Instr} (e : ControlEffect s i t) (hi : ∀ ch, i ≠ .setSampleCount ch) :
    t = s.withControl t := by
  cases e with
  | ended | allocated | freed | submitted | volumeSet | fadedOut | fadedIn => rfl
  | counted ch => exact absurd rfl (hi ch)
  | mixed =>
    rw [noteOutputWrite_frame]
    rfl

/-! ### The OUT engine after the CTRL engine -/

/-- An output-port command reads nothing a control command writes but SAMPLE_COUNT. -/
theorem exec_withControl {j : Instr} {s u : State} (hj : j.format = .out32) (e : exec j s = .next u) (t : State) :
    exec j (s.withControl t) = .next (u.withControl t) := by
  cases j
  case onop | illegalOut | reserve => cases e; rfl
  case release =>
    cases (exec_release s).symm.trans e
    rw [exec_release, State.releaseOld_eq, State.releaseOld_eq]
    rfl
  case output =>
    by_cases hshort : s.outLen < 2 * s.sampleCount.toNat
    · cases (exec_output_short hshort).symm.trans e
      exact exec_output_short (s := s.withControl t) hshort
    · have hlen : 2 * s.sampleCount.toNat ≤ s.outLen := Nat.not_lt.mp hshort
      cases hr : s.hw with
      | none =>
        cases (exec_output_unreserved hlen hr).symm.trans e
        exact exec_output_unreserved (s := s.withControl t) hlen hr
      | some r =>
        cases (exec_output_reserved hlen hr).symm.trans e
        exact exec_output_reserved (s := s.withControl t) hlen hr
  all_goals nomatch hj

/-! ### The CTRL engine after the OUT engine -/

theorem channelCommand_withOutPort {rejectFree : Bool} {h : BitVec 8} {s t : State} {f : Slot → Slot}
    (e : channelCommand rejectFree h s f = .next t) (u : State) :
    channelCommand rejectFree h (s.withOutPort u) f = .next (t.withOutPort u) := by
  rcases channelCommand_cases rejectFree h s f with ⟨hh, hused, e'⟩ | ⟨hout | ⟨hh, rfl, hfree⟩, e'⟩ <;>
    cases e'.symm.trans e
  · exact channelCommand_slot (s := s.withOutPort u) (c := ⟨h.toNat, hh⟩) rfl (fun hr hst => hused ⟨hr, hst⟩) f
  · exact channelCommand_outOfRange hout rejectFree (s.withOutPort u) f
  · exact channelCommand_free (s := s.withOutPort u) (c := ⟨h.toNat, hh⟩) rfl hfree f

theorem execAlloc_withOutPort {ch : BitVec 8} {s t : State} (e : execAlloc ch s = .next t) (u : State) :
    execAlloc ch (s.withOutPort u) = .next (t.withOutPort u) := by
  unfold execAlloc at e ⊢
  rw [State.withOutPort_firstFree]
  split at e <;> (cases e; rfl)

theorem playFrame_withOutPort (s u : State) (g : Int) (sl : Slot) (d : Nat) (f : AccFrame) :
    playFrame (s.withOutPort u) g sl d f = playFrame s g sl d f := rfl

/-- The frame loop reads the parameters, memory and MASTER_VOL (R181, R184, R185). -/
theorem frameLoop_withOutPort (s u : State) (g : Int) (sl : Slot) (d : Nat) (fs : List AccFrame) :
    frameLoop (s.withOutPort u) g sl d fs = frameLoop s g sl d fs := by
  induction fs generalizing sl d with
  | nil => rfl
  | cons f fs ih =>
    simp only [frameLoop, ih, playFrame_withOutPort]
    rfl

theorem mixSlot_withOutPort (u : State) (p : State × List AccFrame) (c : Fin 8) :
    mixSlot (p.map (·.withOutPort u) id) c = (mixSlot p c).map (·.withOutPort u) id := by
  unfold mixSlot
  simp only [Prod.map_fst, Prod.map_snd, frameLoop_withOutPort, State.withOutPort_slot, id]
  split
  · rfl
  · split <;> rfl

theorem mixPass_withOutPort (s u : State) :
    mixPass (s.withOutPort u) = (mixPass s).map (·.withOutPort u) id := by
  have hstart : (s.withOutPort u, List.replicate s.sampleCount.toNat ((0, 0) : AccFrame)) =
      Prod.map (·.withOutPort u) id (s, List.replicate s.sampleCount.toNat (0, 0)) := rfl
  unfold mixPass
  rw [State.withOutPort_sampleCount, hstart, List.foldl_hom (g₁ := mixSlot) _ (mixSlot_withOutPort u)]

theorem exec_mix_withOutPort {ch : BitVec 8} {s t : State} (e : exec (.mix ch) s = .next t) (u : State) :
    ∃ r, exec (.mix ch) (s.withOutPort u) = .next { t.withOutPort u with outTouched := r } := by
  have h := MixEffect.of_exec e
  obtain ⟨t', e', h'⟩ := exec_mix ch (s.withOutPort u)
  have hslots : t'.slots = t.slots := by rw [h'.slots, h.slots, mixPass_withOutPort, Prod.map_fst, State.withOutPort_slots]
  have hmem : t'.mem = t.mem := by
    rw [h'.mem, h.mem, mixPass_withOutPort, Prod.map_snd, id]
    rfl
  have hdraws : t'.draws = t.draws := by rw [h'.draws, h.draws, mixPass_withOutPort, Prod.map_fst, State.withOutPort_draws]
  refine ⟨t'.outTouched, e'.trans (congrArg _ ?_)⟩
  rw [h'.frame, hslots, hmem, hdraws, h.frame]
  rfl

/-- A control command reads nothing an output-port command writes, but that MIX enters its region in the record of
writes while an OUTPUT is in progress (R78). -/
theorem exec_withOutPort {i : Instr} {s t : State} (hi : i.format = .ctrl32) (e : exec i s = .next t) (u : State) :
    ∃ r, exec i (s.withOutPort u) = .next { t.withOutPort u with outTouched := r } := by
  cases i
  case nop | illegalCtrl | setSampleCount => cases e; exact ⟨_, rfl⟩
  case alloc ch => exact ⟨_, execAlloc_withOutPort (ch := ch) e u⟩
  case free | submit | setVolume | fadeOut | fadeIn =>
    simp only [exec_free, exec_submit, exec_setVolume, exec_fadeOut, exec_fadeIn] at e ⊢
    exact ⟨_, channelCommand_withOutPort e u⟩
  case mix ch => exact exec_mix_withOutPort e u
  all_goals nomatch hi

end Sys2Proof.Machine

namespace Sys2Proof.Proofs

open Sys2Proof Sys2Proof.Machine Sys2Proof.Statements

/-- Settles O52: by the inversion of either engine's step (`ControlEffect.keepsOutPort`, `OutputEffect.frame`). -/
theorem portsAreDisjoint : Obligations.PortsAreDisjoint := by
  intro i s t e
  refine ⟨fun hi => ?_, fun hi => (outputEffect_of_exec hi e).frame⟩
  have heff := controlEffect_of_exec hi e
  have h : KeepsOutPort s t := heff.keepsOutPort
  exact ⟨h.outArg0, h.outArg1, h.outPhase, h.outCode, heff.outOvr, h.outErrcode, h.hw, h.portLog, heff.reqCount⟩

/-- Settles O53: each engine writes apart from the other (`ControlEffect.frame`, `OutputEffect.frame`) and reads nothing
the other writes (`exec_withControl`, `exec_withOutPort`), so that either order leaves what both have written. -/
theorem engineOrderDoesNotShow : Obligations.EngineOrderDoesNotShow := by
  intro s t u i j hi hcount hj et eu
  have ht : t = s.withControl t := (controlEffect_of_exec hi et).frame hcount
  have hu : u = s.withOutPort u := (outputEffect_of_exec hj eu).frame
  have hjt : exec j t = .next (u.withControl t) := ht ▸ exec_withControl hj eu t
  obtain ⟨r, hr⟩ := exec_withOutPort hi et u
  have hiu : exec i u = .next { t.withOutPort u with outTouched := r } := hu ▸ hr
  refine ⟨_, _, hjt, hiu, ?_⟩
  rw [ht, hu]
  rfl

end Sys2Proof.Proofs
end

section
/-! SUPPORT. The family of 70_reset_and_hazards.md: what reset leaves (R260 to R262), and what runs with no event left
(R236, R276; log 2). -/

namespace Sys2Proof.Machine

open Sys2Proof.Statements

/-! ### Reset -/

theorem step_reset {s : State} {rest : List Event} (hag : s.agenda = .reset :: rest) :
    step s = .next (State.applyReset { s with agenda := rest }) := step_event hag

theorem applyReset_hw (s : State) : s.applyReset.hw = none := rfl

/-- After reset every slot is FREE_SLOT (R261). -/
theorem applyReset_slot (s : State) (c : Fin 8) : s.applyReset.slot c = freeSlotValue :=
  (State.atReset_slot s.cfg c).trans freeSlot_eq_freeSlotValue

/-- After reset no request of the Port is waited for, whatever its number. -/
theorem applyReset_not_awaiting (s : State) (id : Nat) (req : PortReq) : s.applyReset.outPhase ≠ .awaitPort id req :=
  nofun

/-- All reset sends to the Port: the release of a held handle (R262). -/
theorem applyReset_portLog (s : State) :
    s.applyReset.portLog = s.portLog ++ s.hw.toList.map (fun r => .release r.handle) :=
  s.releaseOld_portLog s.hw

/-- Reset keeps the count of requests (log 11, log 21). -/
theorem applyReset_reqCount (s : State) : s.applyReset.reqCount = s.reqCount := s.releaseOld_reqCount s.hw

/-! ### The numbers of requests over many steps -/

theorem WaitsGrow.refl (s : State) : WaitsGrow s s := .of_eq rfl rfl

/-- A request waited for at last was waited for all along, or has a number that is new since some step, and so since
the first. -/
theorem WaitsGrow.trans {s t u : State} (h : WaitsGrow s t) (h' : WaitsGrow t u) : WaitsGrow s u where
  count := h.count.trans h'.count
  number id req hwait := by
    rcases h'.number id req hwait with hearlier | hnew
    · exact h.number id req hearlier
    · exact .inr (h.count.trans hnew)

theorem steps_waitsGrow {n : Nat} {s t : State} (e : steps n s = .next t) : WaitsGrow s t := by
  induction n generalizing s with
  | zero =>
    cases e
    exact .refl _
  | succ n ih =>
    unfold steps at e
    split at e
    · next u hstep => exact (step_waitsGrow hstep).trans (ih e)
    · next hstop => exact absurd e (hstop t)

/-- A request that was sent and is no longer waited for is never waited for again. -/
theorem WaitsGrow.not_awaiting {s t : State} {id : Nat} (h : WaitsGrow s t) (hsent : id < s.reqCount)
    (hnone : ∀ req, s.outPhase ≠ .awaitPort id req) (req : PortReq) : t.outPhase ≠ .awaitPort id req := by
  intro hwait
  rcases h.number id req hwait with hearlier | hnew
  · exact hnone req hearlier
  · exact absurd hsent (Nat.not_lt.mpr hnew)

/-- The step of an answer that no waiting request has the number of only takes the event (R262, log 11). -/
theorem step_portAnswer_other {s : State} {id : Nat} {ans : PortAnswer} {rest : List Event}
    (hnone : ∀ req, s.outPhase ≠ .awaitPort id req) (hag : s.agenda = .portAnswer id ans :: rest) :
    step s = .next { s with agenda := rest } :=
  (step_portAnswer hag).trans (congrArg _ (State.portAnswer_other (s := { s with agenda := rest }) hnone ans))

/-! ### With no event left -/

theorem outPending_eq_false_iff (s : State) : s.outPending = false ↔ ∀ w, s.outPhase ≠ .pending w := by
  cases hp : s.outPhase <;> simp [State.outPending, hp]

theorem outPending_eq_true {s : State} {w : Word} (h : s.outPhase = .pending w) : s.outPending = true := by
  simp [State.outPending, h]

/-- With no command latched the OUT engine steps, if any does. -/
theorem step_idle_of_latch_empty {s : State} (hag : s.agenda = []) (h : s.ctrlLatch = none) : step s = outStep s := by
  rw [step_idle hag]
  simp [idleStep, State.ctrlBusy, h]

/-- With no word pending on the OUT port the CTRL engine steps, if any does. -/
theorem step_idle_of_not_outPending {s : State} (hag : s.agenda = []) (h : s.outPending = false) :
    step s = ctrlStep s := by
  cases hw : s.ctrlLatch with
  | none => rw [step_idle_of_latch_empty hag hw, outStep_other h, ctrlStep_empty hw]
  | some w =>
    rw [step_idle hag]
    simp [idleStep, State.ctrlBusy, hw, h]

/-- With both engines enabled one of the two steps, on the state after the draw that picks it (log 2). -/
theorem step_idle_of_both {s : State} {w v : Word} (hag : s.agenda = []) (hw : s.ctrlLatch = some w)
    (hv : s.outPhase = .pending v) : step s = ctrlStep (s.drawn 1) ∨ step s = outStep (s.drawn 1) := by
  have hbusy : s.ctrlBusy = true := by simp [State.ctrlBusy, hw]
  rw [step_idle hag]
  rcases idleStep_cases s with ⟨-, h⟩ | ⟨-, hquiet, -⟩ | ⟨hempty, -⟩
  · exact h
  · exact absurd (outPending_eq_true hv) (by simp [hquiet])
  · exact absurd hbusy (by simp [hempty])

/-! ### The engines take up their words -/

theorem ControlEffect.agenda {s t : State} {i : Instr} (e : ControlEffect s i t) : t.agenda = s.agenda := by
  cases e <;> simp

theorem OutputEffect.agenda {s t : State} {i : Instr} (e : OutputEffect s i t) : t.agenda = s.agenda := by
  cases e <;> simp

/-- An output-port command has ended or waits for the Port after the engine's step (R218). -/
theorem OutputEffect.not_pending {s t : State} {i : Instr} (e : OutputEffect s i t) (w : Word) :
    t.outPhase ≠ .pending w := by
  cases e <;> exact nofun

/-- The CTRL engine's step empties the latch, and leaves the OUT port's phase and the events. -/
theorem ctrlStep_drains (s : State) :
    ∃ t, ctrlStep s = .next t ∧ t.ctrlLatch = none ∧ t.outPending = s.outPending ∧ t.agenda = s.agenda := by
  cases hw : s.ctrlLatch with
  | none => exact ⟨s, ctrlStep_empty hw, hw, rfl, rfl⟩
  | some w =>
    obtain ⟨t, e⟩ := exec_next (decodeCtrl w) s
    have heff := controlEffect_of_exec (decodeCtrl_format w) e
    have hkeep : KeepsOutPort s t := heff.keepsOutPort
    exact ⟨t, (ctrlStep_full hw).trans e, heff.ctrlLatch, by rw [State.outPending, hkeep.outPhase, State.outPending],
      heff.agenda⟩

/-- The OUT engine's step leaves no word pending, and leaves the latch and the events. -/
theorem outStep_drains (s : State) :
    ∃ t, outStep s = .next t ∧ t.outPending = false ∧ t.ctrlLatch = s.ctrlLatch ∧ t.agenda = s.agenda := by
  cases hp : s.outPending with
  | false => exact ⟨s, outStep_other hp, hp, rfl, rfl⟩
  | true =>
    obtain ⟨w, hw⟩ : ∃ w, s.outPhase = .pending w := by
      by_contra hnone
      exact absurd ((outPending_eq_false_iff s).mpr (not_exists.mp hnone)) (by simp [hp])
    obtain ⟨t, e⟩ := exec_next (decodeOut w) s
    have heff := outputEffect_of_exec (decodeOut_format w) e
    have hkeep : KeepsCommand s t := heff.keepsCommand
    exact ⟨t, (outStep_pending hw).trans e, (outPending_eq_false_iff t).mpr heff.not_pending, hkeep.ctrlLatch,
      heff.agenda⟩

/-- A step with no event left is an engine's, before or after the draw that picks between the two. -/
theorem step_idle_runs_an_engine {s : State} (hag : s.agenda = []) :
    ∃ u, u.agenda = [] ∧ (step s = ctrlStep u ∨ step s = outStep u) := by
  rw [step_idle hag]
  rcases idleStep_cases s with ⟨-, h⟩ | ⟨-, -, h⟩ | ⟨-, h⟩
  · exact ⟨s.drawn 1, hag, h⟩
  · exact ⟨s, hag, .inl h⟩
  · exact ⟨s, hag, .inr h⟩

/-- Whichever engine steps, it holds no word afterwards. -/
theorem step_drains_one_engine {s : State} (hag : s.agenda = []) :
    ∃ t, step s = .next t ∧ t.agenda = [] ∧ (t.ctrlLatch = none ∨ t.outPending = false) := by
  obtain ⟨u, hu, hs | hs⟩ := step_idle_runs_an_engine hag
  · obtain ⟨t, e, hlatch, -, hevents⟩ := ctrlStep_drains u
    exact ⟨t, hs.trans e, hevents.trans hu, .inl hlatch⟩
  · obtain ⟨t, e, hquiet, -, hevents⟩ := outStep_drains u
    exact ⟨t, hs.trans e, hevents.trans hu, .inr hquiet⟩

/-- Where at most one engine holds a word, its step leaves neither with one. -/
theorem step_drains_last_engine {s : State} (hag : s.agenda = []) (hone : s.ctrlLatch = none ∨ s.outPending = false) :
    ∃ t, step s = .next t ∧ t.ctrlLatch = none ∧ t.outPending = false := by
  rcases hone with hempty | hquiet
  · obtain ⟨t, e, hquiet, hlatch, -⟩ := outStep_drains s
    exact ⟨t, (step_idle_of_latch_empty hag hempty).trans e, hlatch.trans hempty, hquiet⟩
  · obtain ⟨t, e, hlatch, hpending, -⟩ := ctrlStep_drains s
    exact ⟨t, (step_idle_of_not_outPending hag hquiet).trans e, hlatch, hpending.trans hquiet⟩

end Sys2Proof.Machine

namespace Sys2Proof.Proofs

open Sys2Proof Sys2Proof.Machine Sys2Proof.Statements

/-- Settles O2: reset leaves `State.atReset` but for memory and what is outside the block; SAMPLE_COUNT is
`sampleCountFor`'s, and each status read answers the value of its fields. -/
theorem resetSetsEveryElement : Obligations.ResetSetsEveryElement := by
  refine ⟨by decide, fun s rest hag => ?_⟩
  obtain ⟨hstate, hhandle, hframes⟩ := hwRegisters_none (applyReset_hw { s with agenda := rest })
  exact ⟨_, roundup64 s.cfg.resetSampleRequest.toNat, step_reset hag, rfl, rfl, rfl, rfl, rfl, rfl,
    next_respond_of_eq (ctrlStatus_eq_statusValue _), rfl, rfl, roundup64_isRoundUp64 _, sampleCountFor_toNat s.cfg _,
    rfl, rfl, rfl, next_respond_of_eq (outStatus_eq_statusValue _), rfl, next_respond_of_eq hstate,
    next_respond_of_eq hhandle, next_respond_of_eq hframes, applyReset_slot _, State.applyReset_mem _⟩

/-- Settles O3: reset leaves no request waited for, and keeps the count of requests, so that a later request has a
number of its own (`steps_waitsGrow`); an answer to any other number is ignored. -/
theorem resetDropsOutstandingWork : Obligations.ResetDropsOutstandingWork := by
  intro s rest hag
  have hlog := applyReset_portLog { s with agenda := rest }
  have hcount := applyReset_reqCount { s with agenda := rest }
  have hnone := applyReset_not_awaiting { s with agenda := rest }
  refine ⟨_, step_reset hag, rfl, rfl, rfl, State.applyReset_mem _, hcount, fun r hr => ?_, fun hr => ?_,
    fun u id ans more hu => ?_, fun n u id req ans more hwait hsent hsteps hanswer => ?_⟩
  · simpa [hr] using hlog
  · simpa [hr] using hlog
  · subst hu
    exact step_portAnswer_other (hnone id) rfl
  · exact step_portAnswer_other ((steps_waitsGrow hsteps).not_awaiting (hsent.trans_eq hcount.symm) (hnone id)) hanswer

/-- Settles O7: the first step leaves at most one engine with a word (`step_drains_one_engine`), and the second takes up
that one. -/
theorem enginesDrainInTwoSteps : Obligations.EnginesDrainInTwoSteps := by
  intro s hag
  obtain ⟨t, hst, hevents, hone⟩ := step_drains_one_engine hag
  obtain ⟨u, htu, hlatch, hquiet⟩ := step_drains_last_engine hevents hone
  exact ⟨t, u, hst, htu, hlatch, (outPending_eq_false_iff u).mp hquiet⟩

/-- Settles O5: the step is the enabled engine's (`step_idle_of_latch_empty`, `step_idle_of_not_outPending`,
`step_idle_of_both`), which runs what its word decodes to. -/
theorem emptyAgendaRunsAnEnabledEngine : Obligations.EmptyAgendaRunsAnEnabledEngine := by
  intro s hag
  refine ⟨fun w i hw hquiet hi => ?_, fun v j hempty hv hj => ?_, fun w v i j hw hv hi hj => ?_,
    fun hempty hquiet => ?_⟩
  · cases hi
    exact (step_idle_of_not_outPending hag ((outPending_eq_false_iff s).mpr hquiet)).trans (ctrlStep_full hw)
  · cases hj
    exact (step_idle_of_latch_empty hag hempty).trans (outStep_pending hv)
  · cases hi
    cases hj
    exact (step_idle_of_both hag hw hv).imp (·.trans (ctrlStep_full hw)) (·.trans (outStep_pending hv))
  · exact (step_idle_of_latch_empty hag hempty).trans (outStep_other ((outPending_eq_false_iff s).mpr hquiet))

end Sys2Proof.Proofs
end

section
/-! SUPPORT. The family of 30_encoding.md: the encoder and the decoders undo each other (R39, R90 to R100), and a
transfer placed by its number is what the next step runs (log 17). -/

namespace Sys2Proof

open Sys2Proof.Machine

/-! ### The fields of an encoded word (R91, R94) -/

@[simp] theorem ctrlWord_rsvField (op ch : BitVec 8) : (ctrlWord op ch).extractLsb' 16 16 = 0 :=
  (BitVec.extractLsb'_append_eq_of_le (by decide)).trans BitVec.extractLsb'_append_eq_left

@[simp] theorem ctrlWord_chField (op ch : BitVec 8) : (ctrlWord op ch).extractLsb' 8 8 = ch :=
  (BitVec.extractLsb'_append_eq_of_le (by decide)).trans BitVec.extractLsb'_append_eq_right

@[simp] theorem ctrlWord_opField (op ch : BitVec 8) : (ctrlWord op ch).extractLsb' 0 8 = op :=
  BitVec.extractLsb'_append_eq_right

/-- Three fields that meet, put together again. -/
theorem append_fields {n lo mid hi : Nat} (x : BitVec n) :
    x.extractLsb' (lo + mid) hi ++ x.extractLsb' lo mid ++ x.extractLsb' 0 lo = x.extractLsb' 0 (hi + mid + lo) := by
  rw [BitVec.extractLsb'_append_extractLsb'_eq_extractLsb' rfl,
    BitVec.extractLsb'_append_extractLsb'_eq_extractLsb' (Nat.zero_add lo).symm]

/-- A word with RSV 0 is put together from its CH and its OP. -/
theorem ctrlWord_of_fields {w : Word} {op : BitVec 8} (hrsv : w.extractLsb' 16 16 = 0)
    (hop : (w.extractLsb' 0 8).toNat = op.toNat) : ctrlWord op (w.extractLsb' 8 8) = w := by
  rw [ctrlWord, ← hrsv, ← BitVec.eq_of_toNat_eq hop]
  exact (append_fields w).trans BitVec.extractLsb'_eq_self

/-- A word with RSV 0 is its OP. -/
theorem outWord_of_fields {w : Word} {op : BitVec 8} (hrsv : w.extractLsb' 8 24 = 0)
    (hop : (w.extractLsb' 0 8).toNat = op.toNat) : outWord op = w := by
  rw [outWord, ← hrsv, ← BitVec.eq_of_toNat_eq hop]
  exact (BitVec.extractLsb'_append_extractLsb'_eq_extractLsb' rfl).trans BitVec.extractLsb'_eq_self

/-! ### Illegal words (R97) -/

theorem wf_illegalCtrl_iff {w : Word} :
    (Instr.illegalCtrl w).wf = true ↔ w.extractLsb' 16 16 ≠ 0 ∨ 8 < (w.extractLsb' 0 8).toNat := by
  simp [Instr.wf, ctrlLegal]

theorem wf_illegalOut_iff {w : Word} :
    (Instr.illegalOut w).wf = true ↔ w.extractLsb' 8 24 ≠ 0 ∨ 3 < (w.extractLsb' 0 8).toNat := by
  simp [Instr.wf, outLegal]

/-! ### The fields of a bank offset (R39) -/

@[simp] theorem bankOffset_registerField (c : Fin 8) (k : BitVec 5) : (bankOffset c k).extractLsb' 0 5 = k :=
  BitVec.extractLsb'_append_eq_right

@[simp] theorem bankOffset_channelField (c : Fin 8) (k : BitVec 5) :
    (bankOffset c k).extractLsb' 5 3 = BitVec.ofFin (w := 3) c :=
  (BitVec.extractLsb'_append_eq_of_le (by decide)).trans BitVec.extractLsb'_append_eq_right

theorem bankOffset_toNat (c : Fin 8) (k : BitVec 5) : (bankOffset c k).toNat = 0x100 + 0x20 * c.val + k.toNat := by
  rw [bankOffset, BitVec.toNat_append, ← Nat.shiftLeft_add_eq_or_of_lt k.isLt, BitVec.toNat_append,
    ← Nat.shiftLeft_add_eq_or_of_lt (BitVec.isLt _), Nat.shiftLeft_eq, Nat.shiftLeft_eq]
  change (1 * 2 ^ 3 + c.val) * 2 ^ 5 + k.toNat = _
  omega

/-- An offset from 0x100 on is put together from its channel and its register. -/
theorem bankOffset_of_fields {off : BitVec 9} (hge : 0x100 ≤ off.toNat) :
    bankOffset (off.extractLsb' 5 3).toFin (off.extractLsb' 0 5) = off := by
  have hbank : (1 : BitVec 1) = off.extractLsb' 8 1 := by
    have := off.isLt
    apply BitVec.eq_of_toNat_eq
    rw [BitVec.extractLsb'_toNat, Nat.shiftRight_eq_div_pow]
    change 1 = _
    omega
  rw [bankOffset, hbank]
  exact (append_fields off).trans BitVec.extractLsb'_eq_self

/-! ### What decodes is the encoding of what it decodes to -/

/-- The instruction is well-formed, and the transfer is its encoding. -/
def EncodedBy (r : Raw) (i : Instr) : Prop := i.wf = true ∧ encode i = r

theorem encodedBy_decodeCtrl (w : Word) : EncodedBy (.ctrl w) (decodeCtrl w) := by
  unfold decodeCtrl
  split
  · next hrsv => exact ⟨wf_illegalCtrl_iff.mpr (.inl (by simpa using hrsv)), rfl⟩
  · next hrsv =>
    have hword {op : BitVec 8} (hop : (w.extractLsb' 0 8).toNat = op.toNat) :=
      congrArg Raw.ctrl (ctrlWord_of_fields (by simpa using hrsv) hop)
    dsimp only
    split
    case h_10 =>
      simp only [imp_false] at *
      exact ⟨wf_illegalCtrl_iff.mpr (.inr (by omega)), rfl⟩
    all_goals next hop => exact ⟨rfl, hword hop⟩

theorem encodedBy_decodeOut (w : Word) : EncodedBy (.out w) (decodeOut w) := by
  unfold decodeOut
  split
  · next hrsv => exact ⟨wf_illegalOut_iff.mpr (.inl (by simpa using hrsv)), rfl⟩
  · next hrsv =>
    have hword {op : BitVec 8} (hop : (w.extractLsb' 0 8).toNat = op.toNat) :=
      congrArg Raw.out (outWord_of_fields (by simpa using hrsv) hop)
    split
    case h_5 =>
      simp only [imp_false] at *
      exact ⟨wf_illegalOut_iff.mpr (.inr (by omega)), rfl⟩
    all_goals next hop => exact ⟨rfl, hword hop⟩

/-- The offsets are taken one by one, as in `decodeRegister_format`. -/
theorem encodedBy_decodeRegister {off : BitVec 9} (a : Access) (hal : off.toNat % 4 = 0) (hlt : off.toNat < 0x100) :
    EncodedBy (.mmio off .word a) (decodeRegister off a) := by
  obtain ⟨k, hk64, hk⟩ := exists_register_number hal hlt
  obtain rfl : off = BitVec.ofNat 9 (4 * k) := by rw [← hk, BitVec.ofNat_toNat, BitVec.setWidth_eq]
  clear hal hlt hk
  interval_cases k
  all_goals cases a <;> exact ⟨rfl, rfl⟩

theorem encodedBy_decodeBank {off : BitVec 9} (a : Access) (hal : off.toNat % 4 = 0) (hge : 0x100 ≤ off.toNat) :
    EncodedBy (.mmio off .word a) (decodeBank off a) := by
  have hk : (off.extractLsb' 0 5).toNat % 4 = 0 := by
    simp only [BitVec.extractLsb'_toNat, Nat.shiftRight_zero]
    omega
  unfold decodeBank
  cases a with
  | write w => exact ⟨beq_iff_eq.mpr hk, congrArg (mmioWrite · w) (bankOffset_of_fields hge)⟩
  | read =>
    have hread {k : BitVec 5} (h : (off.extractLsb' 0 5).toNat = k.toNat) :
        mmioRead (bankOffset (off.extractLsb' 5 3).toFin k) = .mmio off .word .read := by
      rw [← BitVec.eq_of_toNat_eq h, bankOffset_of_fields hge, mmioRead]
    dsimp only
    split
    case h_8 =>
      -- 0x1C is the only multiple of 4 left
      have hlast : (off.extractLsb' 0 5).toNat = (0x1C : BitVec 5).toNat := by
        have := (off.extractLsb' 0 5).isLt
        simp only [imp_false] at *
        change _ = 0x1C
        omega
      exact ⟨rfl, hread hlast⟩
    all_goals next h => exact ⟨rfl, hread h⟩

theorem encodedBy_of_decode {r : Raw} {i : Instr} (h : decode r = .ok i) : EncodedBy r i := by
  cases r with
  | ctrl w => cases h; exact encodedBy_decodeCtrl w
  | out w => cases h; exact encodedBy_decodeOut w
  | mmio off width a =>
    obtain ⟨rfl, hal, -⟩ := decodeMmio_ok h
    rcases Nat.lt_or_ge off.toNat 0x100 with hlt | hge
    · cases (decode_register a hal hlt).symm.trans h
      exact encodedBy_decodeRegister a hal hlt
    · cases (decode_bank a hal hge).symm.trans h
      exact encodedBy_decodeBank a hal hge

/-! ### What an instruction is encoded by decodes to it -/

theorem decode_bankOffset (c : Fin 8) {k : BitVec 5} (a : Access) (hk : k.toNat % 4 = 0) :
    decode (.mmio (bankOffset c k) .word a) = .ok (decodeBank (bankOffset c k) a) := by
  have hoff := bankOffset_toNat c k
  exact decode_bank a (by omega) (by omega)

theorem decode_reserved {off : BitVec 9} (a : Access) (h : reservedOffset off = true) :
    decode (.mmio off .word a) = .ok (.reserved off a) := by
  simp only [reservedOffset, Bool.and_eq_true, beq_iff_eq, decide_eq_true_eq, Bool.not_eq_true',
    List.contains_eq_mem, decide_eq_false_iff_not] at h
  obtain ⟨⟨hal, hlt⟩, hnamed⟩ := h
  rw [decode_register a hal hlt, decodeRegister_unnamed a hal hlt hnamed]

theorem decode_encode {i : Instr} (h : i.wf = true) : decode (encode i) = .ok i := by
  cases i
  case nop | alloc | free | submit | setVolume | fadeOut | fadeIn | setSampleCount | mix =>
    simp [encode, decode, decodeCtrl]
  case illegalCtrl w =>
    exact congrArg _ (decodeCtrl_illegal ((wf_illegalCtrl_iff.mp h).imp
      (topField_ne_zero_iff w rfl).mp (lt_of_lt_of_eq · (opField_toNat w))))
  case illegalOut w =>
    exact congrArg _ (decodeOut_illegal ((wf_illegalOut_iff.mp h).imp
      (topField_ne_zero_iff w rfl).mp (lt_of_lt_of_eq · (opField_toNat w))))
  case rdChState c | rdChVolL c | rdChVolR c | rdChBufBase c | rdChBufLen c | rdChPosition c | rdChFadeLevel c
      | rdChFadeStep c =>
    refine (decode_bankOffset c .read rfl).trans ?_
    simp [decodeBank]
  case wrChBank c k w =>
    refine (decode_bankOffset c (.write w) (beq_iff_eq.mp h)).trans ?_
    simp [decodeBank]
  case reserved off a => exact decode_reserved a h
  -- what is left is at a fixed word or a named offset
  all_goals rfl

/-! ### Placing a transfer by its number (log 17) -/

theorem rawOfTable_ctrl (w : Word) : rawOfTable 32 w.toNat = some (.ctrl w) := by
  have hport : w.toNat.testBit 32 = false := Nat.testBit_eq_false_of_lt w.isLt
  have hword : BitVec.ofNat 32 w.toNat = w := by simp
  rw [rawOfTable, hport, hword]
  rfl

theorem rawOfTable_out (w : Word) : rawOfTable 40 (2 ^ 32 + w.toNat) = some (.out w) := by
  have hw := w.isLt
  have hport : (2 ^ 32 + w.toNat).testBit 32 = true := by
    rw [Nat.testBit_two_pow_add_eq, Nat.testBit_eq_false_of_lt hw]
    rfl
  have hword : BitVec.ofNat 32 (2 ^ 32 + w.toNat) = w :=
    BitVec.eq_of_toNat_eq (by rw [BitVec.toNat_ofNat]; omega)
  rw [rawOfTable, hport, hword]
  rfl

theorem rawOfTable_read (off : BitVec 9) : rawOfTable 16 off.toNat = some (mmioRead off) := by
  have hoff := off.isLt
  have hdir : off.toNat.testBit 9 = false := Nat.testBit_eq_false_of_lt hoff
  have hgap : off.toNat / 2 ^ 10 % 2 ^ 6 = 0 := by omega
  have hplace : BitVec.ofNat 9 off.toNat = off := by simp
  rw [rawOfTable, hdir, hgap, hplace]
  rfl

theorem rawOfTable_write (off : BitVec 9) (w : Word) :
    rawOfTable 48 (off.toNat + 2 ^ 9 + w.toNat * 2 ^ 16) = some (mmioWrite off w) := by
  have hoff := off.isLt
  have hdir : (off.toNat + 2 ^ 9 + w.toNat * 2 ^ 16).testBit 9 = true := by
    rw [Nat.testBit_eq_decide_div_mod_eq, decide_eq_true_eq]
    omega
  have hgap : (off.toNat + 2 ^ 9 + w.toNat * 2 ^ 16) / 2 ^ 10 % 2 ^ 6 = 0 := by omega
  have hplace : BitVec.ofNat 9 (off.toNat + 2 ^ 9 + w.toNat * 2 ^ 16) = off :=
    BitVec.eq_of_toNat_eq (by rw [BitVec.toNat_ofNat]; omega)
  have hdata : (off.toNat + 2 ^ 9 + w.toNat * 2 ^ 16) / 2 ^ 16 = w.toNat := by omega
  have hword : BitVec.ofNat 32 w.toNat = w := by simp
  rw [rawOfTable, hdir, hgap, hplace, hdata, hword]
  rfl

/-- A transfer that decodes is read back from its number: an access is then a 32-bit one, so that its width needs no
bits. -/
theorem rawOfTable_tableOfRaw {r : Raw} {i : Instr} (h : decode r = .ok i) :
    rawOfTable (tableOfRaw r).1 (tableOfRaw r).2 = some r := by
  cases r with
  | ctrl w => exact rawOfTable_ctrl w
  | out w => exact rawOfTable_out w
  | mmio off width a =>
    obtain ⟨rfl, -, -⟩ := decodeMmio_ok h
    cases a with
    | read => exact rawOfTable_read off
    | write w => exact rawOfTable_write off w

theorem decodeTableWord_tableOfRaw {r : Raw} {i : Instr} (h : decode r = .ok i) :
    decodeTableWord (tableOfRaw r).1 (tableOfRaw r).2 = some i := by
  simp only [decodeTableWord, rawOfTable_tableOfRaw h, h]

theorem withFetchWord_tableOfRaw {r : Raw} {i : Instr} (h : decode r = .ok i) (s : State) :
    s.withFetchWord (tableOfRaw r).1 (tableOfRaw r).2 = s.placeRaw r := by
  simp only [State.withFetchWord, rawOfTable_tableOfRaw h]

/-- The step of a transfer just placed is its instruction's, in the state with its word in its port. -/
theorem step_placeRaw {r : Raw} {i : Instr} (h : decode r = .ok i) (s : State) :
    step (s.placeRaw r) = exec i { s.placeRaw r with agenda := s.agenda } := by
  cases r with
  | ctrl w =>
    cases h
    rw [step_event (s := s.placeRaw (.ctrl w)) rfl]
    exact ctrlStep_full (s := { s.placeRaw (.ctrl w) with agenda := s.agenda }) rfl
  | out w =>
    cases h
    rw [step_event (s := s.placeRaw (.out w)) rfl]
    exact outStep_pending (s := { s.placeRaw (.out w) with agenda := s.agenda }) rfl
  | mmio off width a =>
    obtain ⟨rfl, -, -⟩ := decodeMmio_ok h
    rw [step_registerAccess (s := s.placeRaw (.mmio off .word a)) rfl]
    exact execRaw_ok h _

end Sys2Proof

namespace Sys2Proof.Proofs

open Sys2Proof Sys2Proof.Machine Sys2Proof.Statements

/-- Settles O8: the decoders read each field of an encoding back (`decode_encode`), and an illegal command or a reserved
access is only what no other row has. -/
theorem decodeEncodeAgree : Obligations.DecodeEncodeAgree := fun _ h => decode_encode h

/-- Settles O9: by the branches of the decoders, one lemma for each (`encodedBy_of_decode`). -/
theorem encodeDecodeAgree : Obligations.EncodeDecodeAgree := fun _ _ h => encodedBy_of_decode h

/-- Settles O6: an instruction's number is read back as its encoding (`rawOfTable_tableOfRaw`), which decodes to it
(`decode_encode`) and is what the next step runs (`step_placeRaw`). -/
theorem placedInstructionRuns : Obligations.PlacedInstructionRuns := by
  intro s i hwf
  have hdec := decode_encode hwf
  refine ⟨decodeTableWord_tableOfRaw hdec, ?_⟩
  rw [withFetchWord_tableOfRaw hdec, step_placeRaw hdec]
  cases encode i <;> rfl

/-- Settles O12: the ten words are closed, and the decoder evaluates on each. -/
theorem wordsOfTheSpecDecode : Obligations.WordsOfTheSpecDecode := by
  unfold Obligations.WordsOfTheSpecDecode
  decide

end Sys2Proof.Proofs
end
